-- ==== Sys2Proof/Word.lean ====
section
/-!
DEFINITION. The 32-bit word and its two readings (spec/00_scope.md rules R5, R13, R19).
-/

namespace Sys2Proof

/-- A word: the content of every program word, operand, stack slot, local, global and output value (R5, WORD = 32; log 13). -/
abbrev Word := BitVec 32

/-- `s32(w)` of R13: the word read as a two's-complement signed integer. -/
abbrev s32 (w : Word) : Int := w.toInt

/-- `u32(w)` of R13: the word read as an unsigned integer. -/
abbrev u32 (w : Word) : Nat := w.toNat

/-- `wrap32(n)` of R13: the one word whose signed reading is congruent to `n` modulo 2^32. -/
abbrev wrap32 (n : Int) : Word := BitVec.ofInt 32 n

end Sys2Proof
end

