-- ==== Sys2Proof/Machine/Flags.lean ====
section
/-!
DEFINITION. The engine has no flags (spec/10_state.md rule R30). What stands in their place is here: the
"boolean-as-int" a comparison pushes, the test a conditional branch makes of a word, and the results of the ALU
(spec/40_alu.md).
-/

namespace Sys2Proof.Machine

/-- A Boolean as a word: exactly 1 or exactly 0 (R30). -/
def boolWord (b : Bool) : Word := if b then 1 else 0

/-- The condition a word stands for: any word other than 0 is true (R124). -/
def wordIsTrue (c : Word) : Bool := decide (c ≠ 0)

/-- The addition law (R101). -/
def addWords (a b : Word) : Word := wrap32 (s32 a + s32 b)

/-- The subtraction law (R103): `a` was pushed first. -/
def subWords (a b : Word) : Word := wrap32 (s32 a - s32 b)

/-- The multiplication law (R105). -/
def mulWords (a b : Word) : Word := wrap32 (s32 a * s32 b)

/-- The comparison law (R107): signed. -/
def ltWords (a b : Word) : Word := boolWord (decide (s32 a < s32 b))

/-- The equality law (R109): all 32 bits. -/
def eqWords (a b : Word) : Word := boolWord (decide (a = b))

end Sys2Proof.Machine
end

