-- ==== Sys2Proof/Config.lean ====
section
/-!
DEFINITION. What an implementation fixes (spec/00_scope.md rules R5 to R10, spec/20_memory.md rule R56) and the one
value the spec leaves open (log 8).
-/

namespace Sys2Proof

/-- The byte order of a serialised program, the OPEN parameter LOADER_BYTE_ORDER of R56. -/
inductive ByteOrder where
  | little
  | big
deriving DecidableEq, Repr

/-- The implementation parameters of R6 to R10 and R56. They are no part of the engine's state (R48): every operation
reads them from its argument, so what is proved of all arguments is proved for every value of them (log 1). -/
structure Params where
  /-- STACK_CAP (R6): operand-stack slots, at least 1. -/
  stackCap : Nat
  /-- FRAME_LOCALS (R7): local slots of every call frame. -/
  frameLocals : Nat
  /-- MAX_FRAMES (R8): simultaneously active call frames, at least 1. -/
  maxFrames : Nat
  /-- CODE_MAX (R9): the largest CODE_LEN a start accepts. -/
  codeMax : Nat
  /-- G_MAX (R10): the largest G_CAP a start accepts. -/
  gMax : Nat
  /-- LOADER_BYTE_ORDER (R56): used by the loader alone. -/
  loaderByteOrder : ByteOrder
deriving DecidableEq, Repr

/-- The limits R6 and R8 set on the parameters. -/
abbrev Params.Legal (p : Params) : Prop := 1 ≤ p.stackCap ∧ 1 ≤ p.maxFrames

/-- The parameters `State.reset` carries: STACK_CAP = 100 is the default of R6. DESIGN CHOICE (log 2, unsafe): the
other values are OPEN in the spec; 4 and 8 are those of the spec's test vectors. No statement rests on them. -/
def Params.default : Params :=
  { stackCap := 100, frameLocals := 4, maxFrames := 8, codeMax := 65536, gMax := 65536, loaderByteOrder := .little }

/-- FREE VALUE (log 8, DESIGN CHOICE, safe): what the 32-bit register FAULT_OFFSET holds when the faulting
instruction's offset is 2^32 or more, which the spec does not state. -/
opaque Config.wideFaultOffset : Nat → Word

end Sys2Proof
end

