-- ==== Sys2Proof/Syntax.lean ====
section
/-!
DEFINITION. The instruction set as abstract terms: the closed list of 18 opcodes (spec/00_scope.md rule R2,
spec/30_encoding.md rules R70 to R77, R84).
-/

namespace Sys2Proof

/-- The 18 opcodes in the order of R84. -/
inductive Opcode where
  | iadd | isub | imul | ilt | ieq
  | br | brt | brf
  | iconst | load | gload | store | gstore
  | print | pop
  | call | ret
  | halt
deriving DecidableEq, Repr

/-- The mnemonic of the catalog (R77, R84). -/
def Opcode.mnemonic : Opcode → String
  | .iadd => "IADD" | .isub => "ISUB" | .imul => "IMUL" | .ilt => "ILT" | .ieq => "IEQ"
  | .br => "BR" | .brt => "BRT" | .brf => "BRF"
  | .iconst => "ICONST" | .load => "LOAD" | .gload => "GLOAD" | .store => "STORE" | .gstore => "GSTORE"
  | .print => "PRINT" | .pop => "POP"
  | .call => "CALL" | .ret => "RET"
  | .halt => "HALT"

/-- An instruction: its opcode and its inline operand words (R71, R75). An operand is a whole word (R74). -/
inductive Instr where
  | iadd
  | isub
  | imul
  | ilt
  | ieq
  | br (target : Word)
  | brt (target : Word)
  | brf (target : Word)
  | iconst (imm : Word)
  | load (offset : Word)
  | gload (index : Word)
  | store (offset : Word)
  | gstore (index : Word)
  | print
  | pop
  | call (target : Word) (nargs : Word)
  | ret
  | halt
deriving DecidableEq, Repr

/-- The opcode of an instruction. -/
def Instr.opcode : Instr → Opcode
  | .iadd => .iadd | .isub => .isub | .imul => .imul | .ilt => .ilt | .ieq => .ieq
  | .br _ => .br | .brt _ => .brt | .brf _ => .brf
  | .iconst _ => .iconst | .load _ => .load | .gload _ => .gload | .store _ => .store | .gstore _ => .gstore
  | .print => .print | .pop => .pop
  | .call _ _ => .call | .ret => .ret
  | .halt => .halt

/-- The operand words of an instruction in the order of R71. -/
def Instr.operands : Instr → List Word
  | .iadd => [] | .isub => [] | .imul => [] | .ilt => [] | .ieq => []
  | .br target => [target] | .brt target => [target] | .brf target => [target]
  | .iconst imm => [imm] | .load offset => [offset] | .gload index => [index]
  | .store offset => [offset] | .gstore index => [index]
  | .print => [] | .pop => []
  | .call target nargs => [target, nargs] | .ret => []
  | .halt => []

/-- The number of words an instruction occupies, `1 + arity(op)` (R70, R76). -/
def Instr.size (i : Instr) : Nat := 1 + i.operands.length

end Sys2Proof
end

