-- ==== Sys2Proof/Machine/State.lean ====
section
/-!
DEFINITION. The state of the engine as plain data (spec/10_state.md), the reasons a step can stop, and the state after
power-on (spec/70_reset_and_hazards.md rule R223).
-/

namespace Sys2Proof.Machine

/-- The fault kinds of R190, in the order of their codes. Raising one is a next state (R196), not a `Fault`. -/
inductive FaultKind where
  | unknownOpcode
  | stackUnderflow
  | stackOverflow
  | invalidGlobalIndex
  | invalidLocalOffset
  | unbalancedReturn
  | programBoundsError
deriving DecidableEq, Repr

/-- `STATUS.run_state` (R41). -/
inductive RunState where
  | idle
  | running
  | halted
  | faulted
deriving DecidableEq, Repr

/-- One word-indexed space: (index, word) pairs, indices strictly rising, no entry equal to the 0 an unlisted index
reads as (R39, R50, R55; logs 4 and 5). Its operations are in Machine/Ops.lean. -/
abbrev Memory := List (Nat × Word)

/-- A call-frame record (R36). -/
structure FrameRecord where
  /-- `ret_ip`: the return address. -/
  retIp : Nat
  /-- `saved_fp`: the caller's frame pointer. -/
  savedFp : Int
  /-- `saved_sp`: the caller's stack level after its arguments were popped. -/
  savedSp : Int
  /-- `L`: the local-variable slots. -/
  locals : Memory
deriving DecidableEq, Repr

/-- The call-frame store: (index, record) pairs, indices strictly rising; a record that is not listed is absent
(R36, R37; log 12). -/
abbrev FrameStore := List (Nat × FrameRecord)

/-- One record of the trace port (R43). -/
structure TraceRecord where
  cur : Nat
  opcode : Opcode
  operands : List Word
  sp : Int
  /-- `S[0 .. sp]`, bottom first. -/
  stack : List Word
  /-- `G[0 .. G_CAP-1]`. -/
  globals : List Word
deriving DecidableEq, Repr

/-- The state of the engine (R20): the run state, STATUS and FAULT_OFFSET (R41), the output and trace streams (R42,
R43), and the latched run inputs (R44). The implementation parameters are not in it (R48). -/
structure EngineState where
  /-- `CODE` (R40); CODE_LEN is its length. -/
  code : List Word
  /-- `ENTRY` (R11). -/
  entry : Nat
  /-- `G_CAP` (R10). -/
  gCap : Nat
  /-- `TRACE` (R12). -/
  traceOn : Bool
  /-- `ip` (R22). -/
  ip : Nat
  /-- `cur` (R24). -/
  cur : Nat
  /-- `sp` (R25). -/
  sp : Int
  /-- `S` (R26). -/
  stack : Memory
  /-- `fp` (R35). -/
  fp : Int
  /-- `F` (R36). -/
  frames : FrameStore
  /-- `G` (R39). -/
  globals : Memory
  /-- `OUT` (R42), first word first. -/
  out : List Word
  /-- The trace records produced (R43), first record first. -/
  trace : List TraceRecord
  /-- `STATUS.run_state` (R41). -/
  runState : RunState
  /-- `STATUS.fault_kind` (R41); `none` is code 0. -/
  faultKind : Option FaultKind
  /-- `FAULT_OFFSET` (R41). -/
  faultOffset : Word
deriving DecidableEq, Repr

/-- What a step is given: the state of the engine, and beside it the parameters of the step (R48), paired with it because
the host's step takes one argument (log 1). No step and no start writes them. -/
structure State extends EngineState where
  /-- The implementation parameters (R6 to R10, R56). -/
  params : Params
deriving DecidableEq, Repr

/-- The engine in the state `e` with the parameters `p`. -/
def EngineState.withParams (e : EngineState) (p : Params) : State := { e with params := p }

/-- Why a step has no next state. -/
inductive Fault where
  /-- Raised by `step` before the first start: the engine takes no step while Idle (R78, R223). Safe: it stops. -/
  | engineIdle
  /-- Raised by `step` after a halt: no further step until a new start (R78, R181). Safe: it stops. -/
  | engineHalted
  /-- Raised by `step` after a fault: no further step until a new start (R78, R198). Safe: it stops. -/
  | engineFaulted
  /-- Raised by an instruction that would access a stack slot outside `[0, STACK_CAP)`: no such slot exists (R50, R60).
  Safe: it stops, and no run reaches it (R49). -/
  | noSuchStackSlot
  /-- Raised by an instruction that would access a frame record that is absent or outside `[0, MAX_FRAMES)` (R36, R37).
  Safe: it stops, and no run reaches it (R49). -/
  | noSuchFrame
deriving DecidableEq, Repr

/-- Why the model gives no meaning. -/
inductive Refusal where
  /-- An instruction that is not modelled yet: raised by `exec` alone. Safe: it stops. -/
  | notModelled (mnemonic : String)
  /-- A start with `CODE_LEN > CODE_MAX` or `G_CAP > G_MAX` (R222): raised by `State.start` alone. Safe: it stops. -/
  | startRefused
deriving DecidableEq, Repr

/-- The machine after power-on with the parameters `p`, before the first start: STATUS is Idle with fault kind 0 and
FAULT_OFFSET 0 (R223). DESIGN CHOICE (log 3, unsafe): every other value, which R223 leaves unspecified. -/
def State.powerOn (p : Params) : State :=
  { params := p, code := [], entry := 0, gCap := 0, traceOn := false
    ip := 0, cur := 0, sp := -1, stack := [], fp := -1, frames := [], globals := []
    out := [], trace := []
    runState := .idle, faultKind := none, faultOffset := 0 }

/-- The machine right after reset. -/
def State.reset : State := State.powerOn Params.default

end Sys2Proof.Machine
end

