-- ==== Sys2Proof/Machine/Ops.lean ====
section
/-!
DEFINITION. The named operations over the word spaces, the frame store and the registers; raising a fault
(spec/60_exceptions.md rule R196) and halting; the stack primitives (spec/10_state.md rules R31 to R34).
-/

namespace Sys2Proof.Machine

/-- What an instruction answers. -/
abbrev Result := Host.Outcome State Fault Refusal

/-! ### Sparse stores: pairs of an index and a value, indices strictly rising -/

/-- The value listed at index `a`. -/
def cellGet {α : Type} : List (Nat × α) → Nat → Option α
  | [], _ => none
  | (k, v) :: cs, a => if k = a then some v else cellGet cs a

/-- List `v` at index `a`, keeping the indices strictly rising. -/
def cellPut {α : Type} : List (Nat × α) → Nat → α → List (Nat × α)
  | [], a, v => [(a, v)]
  | (k, w) :: cs, a, v =>
    if a < k then (a, v) :: (k, w) :: cs
    else if a = k then (a, v) :: cs
    else (k, w) :: cellPut cs a v

/-- List nothing at index `a`. -/
def cellErase {α : Type} : List (Nat × α) → Nat → List (Nat × α)
  | [], _ => []
  | (k, w) :: cs, a => if a = k then cellErase cs a else (k, w) :: cellErase cs a

/-- The indices are strictly rising. -/
abbrev CellsSorted {α : Type} (cs : List (Nat × α)) : Prop := (cs.map Prod.fst).Pairwise (· < ·)

/-! ### Word spaces -/

/-- The word at index `a`; an unlisted index reads 0 (R39 for GLOBAL, R162 for LOCAL; log 5 for STACK). -/
def Memory.read (m : Memory) (a : Nat) : Word := (cellGet m a).getD 0

/-- Write the word `v` at index `a`; a 0 is what an unlisted index reads as, so it is not listed. -/
def Memory.write (m : Memory) (a : Nat) (v : Word) : Memory := if v = 0 then cellErase m a else cellPut m a v

/-- The canonical form: indices strictly rising, no entry equal to what an unlisted index reads as. -/
abbrev Memory.wf (m : Memory) : Prop := CellsSorted m ∧ ∀ c ∈ m, c.2 ≠ 0

/-- Write the words `vs` at the indices `a`, `a + 1`, … of `m`. -/
def Memory.writeList (m : Memory) (a : Nat) : List Word → Memory
  | [] => m
  | v :: vs => Memory.writeList (m.write a v) (a + 1) vs

/-- The words at the indices `0 .. n-1`. -/
def Memory.toWords (m : Memory) (n : Nat) : List Word := (List.range n).map m.read

/-! ### Registers and streams: one operation per write -/

/-- CODE_LEN (R9). -/
def State.codeLen (s : State) : Nat := s.code.length

/-- The port `code_rd` (R47): the program word at `a`. -/
def State.codeAt? (s : State) (a : Nat) : Option Word := s.code[a]?

/-- `ip <- a`. -/
def State.setIp (s : State) (a : Nat) : State := { s with ip := a }

/-- `cur <- a`. -/
def State.setCur (s : State) (a : Nat) : State := { s with cur := a }

/-- `sp <- i`. -/
def State.setSp (s : State) (i : Int) : State := { s with sp := i }

/-- `fp <- k`. -/
def State.setFp (s : State) (k : Int) : State := { s with fp := k }

/-- `S[i] <- v`, for a slot that exists (`State.hasSlot`). -/
def State.putSlot (s : State) (i : Int) (v : Word) : State := { s with stack := s.stack.write i.toNat v }

/-- `G[i] <- v`, for an index below G_CAP. -/
def State.putGlobal (s : State) (i : Nat) (v : Word) : State := { s with globals := s.globals.write i v }

/-- `F[k] <- r`, for a record that exists (`State.hasFrame`). -/
def State.putFrame (s : State) (k : Int) (r : FrameRecord) : State := { s with frames := cellPut s.frames k.toNat r }

/-- The record `F[k]` is destroyed (R36, R37; log 12). -/
def State.dropFrame (s : State) (k : Int) : State := { s with frames := cellErase s.frames k.toNat }

/-- `emit(v)`: append `v` to OUT (R15, R42). -/
def State.emit (s : State) (v : Word) : State := { s with out := s.out ++ [v] }

/-- One event on the trace port (R43). -/
def State.emitTrace (s : State) (r : TraceRecord) : State := { s with trace := s.trace ++ [r] }

/-- Write STATUS and FAULT_OFFSET (R41). -/
def State.setStatus (s : State) (rs : RunState) (k : Option FaultKind) (offset : Word) : State :=
  { s with runState := rs, faultKind := k, faultOffset := offset }

/-! ### Ends of a run -/

/-- The 32-bit FAULT_OFFSET for an instruction at `cur` (R191). DESIGN CHOICE (log 8, safe): an offset that does not
fit the register leaves a free value. -/
def faultOffsetOf (cur : Nat) : Word :=
  if cur < 2 ^ 32 then BitVec.ofNat 32 cur else Config.wideFaultOffset cur

/-- Fault entry (R196), for a state in which the instruction at `cur` has written nothing yet. -/
def State.faulted (s : State) (k : FaultKind) : State :=
  (s.setIp s.cur).setStatus .faulted (some k) (faultOffsetOf s.cur)

/-- `raise Fault(k)` (R15, R196): the entry of a fault is a next state. -/
def State.raise (s : State) (k : FaultKind) : Result := .next (s.faulted k)

/-- `halt` (R180, R82): `STATUS.run_state <- Halted`, no other state changes. -/
def State.halt (s : State) : State := { s with runState := .halted }

/-- STATUS and FAULT_OFFSET of a started run (R220). -/
def State.enterRunning (s : State) : State := s.setStatus .running none 0

/-! ### Stack slots and frame records -/

/-- The slot `S[i]` exists (R26, R50). -/
def State.hasSlot (s : State) (i : Int) : Bool := decide (0 ≤ i ∧ i < s.params.stackCap)

/-- The word in slot `S[i]`, if the slot exists (R60: no out-of-range access returns a value). -/
def State.slot? (s : State) (i : Int) : Option Word :=
  if s.hasSlot i then some (s.stack.read i.toNat) else none

/-- Go on with the word in slot `S[i]`; a slot that does not exist stops the machine (log 6, safe). -/
def State.withSlot (s : State) (i : Int) (next : Word → Result) : Result :=
  match s.slot? i with
  | some v => next v
  | none => .fault .noSuchStackSlot

/-- The record place `F[k]` exists (R36, R50). -/
def State.hasFrame (s : State) (k : Int) : Bool := decide (0 ≤ k ∧ k < s.params.maxFrames)

/-- The record `F[k]`, if there is one. -/
def State.frame? (s : State) (k : Int) : Option FrameRecord :=
  if s.hasFrame k then cellGet s.frames k.toNat else none

/-- Go on with the active frame's record `F[fp]`; an absent record stops the machine (log 6, safe). -/
def State.withFrame (s : State) (next : FrameRecord → Result) : Result :=
  match s.frame? s.fp with
  | some r => next r
  | none => .fault .noSuchFrame

/-! ### Stack primitives -/

/-- `Floor()` (R31). -/
def State.floor? (s : State) : Option Int :=
  if s.fp = -1 then some (-1) else (s.frame? s.fp).map FrameRecord.savedSp

/-- `Depth()` (R32). -/
def State.depth? (s : State) : Option Int := s.floor?.map (fun floor => s.sp - floor)

/-- `if Depth() < n then raise Fault(StackUnderflow)`, then go on (R16, R34). -/
def State.needDepth (s : State) (n : Int) (next : Result) : Result :=
  match s.depth? with
  | none => .fault .noSuchFrame
  | some d => if d < n then s.raise .stackUnderflow else next

/-- `Push(v)` (R33). -/
def State.push (s : State) (v : Word) : Result :=
  if s.sp = s.params.stackCap - 1 then s.raise .stackOverflow
  else if s.hasSlot (s.sp + 1) then .next ((s.setSp (s.sp + 1)).putSlot (s.sp + 1) v)
  else .fault .noSuchStackSlot

/-- `Pop()` as an instruction's whole reading of the stack (R34): check the depth, read the top, and go on with it and
with the state whose `sp` is one lower. -/
def State.pop (s : State) (next : Word → State → Result) : Result :=
  s.needDepth 1 (s.withSlot s.sp (fun v => next v (s.setSp (s.sp - 1))))

/-- The `n` words `S[i] .. S[i+n-1]`, if those slots exist. -/
def State.slotsFrom? (s : State) (i : Int) : Nat → Option (List Word)
  | 0 => some []
  | n + 1 =>
    match s.slot? i, State.slotsFrom? s (i + 1) n with
    | some v, some vs => some (v :: vs)
    | _, _ => none

/-- The `n` words `S[sp-n+1] .. S[sp]`, deepest first, if those slots exist (R160). -/
def State.topWords? (s : State) (n : Nat) : Option (List Word) := s.slotsFrom? (s.sp - n + 1) n

/-- `S[0 .. sp]`, bottom first (R43). -/
def State.stackWords (s : State) : List Word := s.stack.toWords (s.sp + 1).toNat

/-- `G[0 .. G_CAP-1]` (R43). -/
def State.globalWords (s : State) : List Word := s.globals.toWords s.gCap

end Sys2Proof.Machine
end

