-- ==== Sys2Proof/Machine/Alu.lean ====
section
/-!
DEFINITION. The five ALU instructions (spec/40_alu.md).
-/

namespace Sys2Proof.Machine

/-- What the five share: pop `b`, pop `a`, push `f a b` (R100). The depth is checked before anything is written. -/
def State.aluStep (s : State) (f : Word → Word → Word) : Result :=
  s.needDepth 2 (s.withSlot s.sp (fun b => s.withSlot (s.sp - 1) (fun a =>
    .next ((s.setSp (s.sp - 1)).putSlot (s.sp - 1) (f a b)))))

/-- IADD (R100). -/
def execIadd (s : State) : Result := s.aluStep addWords

/-- ISUB (R102). -/
def execIsub (s : State) : Result := s.aluStep subWords

/-- IMUL (R104). -/
def execImul (s : State) : Result := s.aluStep mulWords

/-- ILT (R106). -/
def execIlt (s : State) : Result := s.aluStep ltWords

/-- IEQ (R108). -/
def execIeq (s : State) : Result := s.aluStep eqWords

end Sys2Proof.Machine
end

