-- ==== Sys2Proof/Machine/Operands.lean ====
section
/-!
DEFINITION. The operand forms: the range each kind of operand word is checked against when it is used
(spec/30_encoding.md rules R74, R75; spec/41_branch.md rule R120).
-/

namespace Sys2Proof.Machine

/-- An operand word used as an index, once its range is checked (R74: the signed value, not scaled). -/
def operandIndex (o : Word) : Nat := (s32 o).toNat

/-- `ValidTarget(t)` (R120). -/
def State.validTarget (s : State) (t : Word) : Bool := decide (0 ≤ s32 t ∧ s32 t ≤ s.codeLen)

/-- A local offset inside the active frame's region (R53, R133). -/
def State.validLocal (s : State) (o : Word) : Bool :=
  !decide (s.fp = -1 ∨ s32 o < 0 ∨ s.params.frameLocals ≤ s32 o)

/-- A global index below G_CAP (R54, R136). -/
def State.validGlobal (s : State) (o : Word) : Bool := !decide (s32 o < 0 ∨ s.gCap ≤ s32 o)

/-- An argument count that fits the local region (R75, R160). -/
def State.validNargs (s : State) (o : Word) : Bool := !decide (s32 o < 0 ∨ s.params.frameLocals < s32 o)

/-- Go on if the control target is valid, else `raise Fault(ProgramBoundsError)` (R120). -/
def State.needTarget (s : State) (t : Word) (next : Result) : Result :=
  if s.validTarget t then next else s.raise .programBoundsError

/-- Go on if the local offset is valid, else `raise Fault(InvalidLocalOffset)` (R53). -/
def State.needLocal (s : State) (o : Word) (next : Result) : Result :=
  if s.validLocal o then next else s.raise .invalidLocalOffset

/-- Go on if the global index is valid, else `raise Fault(InvalidGlobalIndex)` (R54). -/
def State.needGlobal (s : State) (o : Word) (next : Result) : Result :=
  if s.validGlobal o then next else s.raise .invalidGlobalIndex

/-- Go on if the argument count is valid, else `raise Fault(InvalidLocalOffset)` (R160). -/
def State.needNargs (s : State) (o : Word) (next : Result) : Result :=
  if s.validNargs o then next else s.raise .invalidLocalOffset

end Sys2Proof.Machine
end

