-- ==== Sys2Proof/Machine/Branch.lean ====
section
/-!
DEFINITION. The three branches (spec/41_branch.md).
-/

namespace Sys2Proof.Machine

/-- What BRT and BRF share: pop the condition; when `taken` holds of it, check the target and go there (R122, R125). -/
def State.branchIf (s : State) (taken : Word → Bool) (target : Word) : Result :=
  s.pop (fun c s' =>
    if taken c then s.needTarget target (.next (s'.setIp (operandIndex target))) else .next s')

/-- BR (R121). -/
def execBr (target : Word) (s : State) : Result := s.needTarget target (.next (s.setIp (operandIndex target)))

/-- BRT (R122). -/
def execBrt (target : Word) (s : State) : Result := s.branchIf wordIsTrue target

/-- BRF (R123). -/
def execBrf (target : Word) (s : State) : Result := s.branchIf (fun c => !wordIsTrue c) target

end Sys2Proof.Machine
end

