-- ==== Sys2Proof/Machine/CallReturn.lean ====
section
/-!
DEFINITION. CALL and RET (spec/44_call_return.md).
-/

namespace Sys2Proof.Machine

/-- The record CALL creates (R160 to R162, R164): the arguments in the first locals, every other local 0. -/
def State.callRecord (s : State) (args : List Word) : FrameRecord :=
  { retIp := s.ip, savedFp := s.fp, savedSp := s.sp - args.length, locals := Memory.writeList [] 0 args }

/-- The writes of CALL, with the arguments read (R160). -/
def State.enterCall (s : State) (args : List Word) (target : Word) : State :=
  (((s.putFrame (s.fp + 1) (s.callRecord args)).setSp (s.sp - args.length)).setFp (s.fp + 1)).setIp
    (operandIndex target)

/-- CALL after its checks: read the arguments and make the writes. -/
def State.callBody (s : State) (target : Word) (nargs : Nat) : Result :=
  if s.hasFrame (s.fp + 1) then
    match s.topWords? nargs with
    | some args => .next (s.enterCall args target)
    | none => .fault .noSuchStackSlot
  else .fault .noSuchFrame

/-- CALL (R160): the checks in the order of R195, then the writes. -/
def execCall (target nargs : Word) (s : State) : Result :=
  s.needNargs nargs (s.needDepth (s32 nargs)
    (if s.fp = s.params.maxFrames - 1 then s.raise .stackOverflow
     else s.needTarget target (s.callBody target (operandIndex nargs))))

/-- The writes RET makes besides the stack: `ip` and `fp` restored from the record, the record destroyed (R166). -/
def State.leaveFrame (s : State) (r : FrameRecord) : State :=
  ((s.dropFrame s.fp).setIp r.retIp).setFp r.savedFp

/-- RET (R166): a return value is present when the callee's frame holds an element (R167). -/
def execRet (s : State) : Result :=
  if s.fp = -1 then s.raise .unbalancedReturn
  else s.withFrame (fun r =>
    if r.savedSp < s.sp then
      s.withSlot s.sp (fun v =>
        if s.hasSlot (r.savedSp + 1) then
          .next (((s.putSlot (r.savedSp + 1) v).setSp (r.savedSp + 1)).leaveFrame r)
        else .fault .noSuchStackSlot)
    else .next ((s.setSp r.savedSp).leaveFrame r))

end Sys2Proof.Machine
end

