-- ==== Sys2Proof/Machine/Halt.lean ====
section
/-!
DEFINITION. HALT (spec/45_halt.md).
-/

namespace Sys2Proof.Machine

/-- HALT (R180). -/
def execHalt (s : State) : Result := .next s.halt

end Sys2Proof.Machine
end

