-- ==== Sys2Proof/Machine/StackOutput.lean ====
section
/-!
DEFINITION. PRINT and POP (spec/43_stack_output.md).
-/

namespace Sys2Proof.Machine

/-- PRINT (R150). -/
def execPrint (s : State) : Result := s.pop (fun v s' => .next (s'.emit v))

/-- POP (R152): it reads no slot. -/
def execPop (s : State) : Result := s.needDepth 1 (.next (s.setSp (s.sp - 1)))

/-- The line the sink renders for one output word: signed decimal (R42, R151). -/
def sinkLine (v : Word) : String := toString (s32 v)

end Sys2Proof.Machine
end

