-- ==== Sys2Proof/Machine/Storage.lean ====
section
/-!
DEFINITION. The constant and storage instructions (spec/42_storage.md).
-/

namespace Sys2Proof.Machine

/-- `F[fp].L[i] <- v` in the record `r` of the active frame. -/
def State.putLocal (s : State) (r : FrameRecord) (i : Nat) (v : Word) : State :=
  s.putFrame s.fp { r with locals := r.locals.write i v }

/-- ICONST (R130). -/
def execIconst (imm : Word) (s : State) : Result := s.push imm

/-- LOAD (R133). -/
def execLoad (offset : Word) (s : State) : Result :=
  s.needLocal offset (s.withFrame (fun r => s.push (r.locals.read (operandIndex offset))))

/-- GLOAD (R136). -/
def execGload (index : Word) (s : State) : Result :=
  s.needGlobal index (s.push (s.globals.read (operandIndex index)))

/-- STORE (R139). -/
def execStore (offset : Word) (s : State) : Result :=
  s.needLocal offset (s.pop (fun v s' => s.withFrame (fun r => .next (s'.putLocal r (operandIndex offset) v))))

/-- GSTORE (R142). -/
def execGstore (index : Word) (s : State) : Result :=
  s.needGlobal index (s.pop (fun v s' => .next (s'.putGlobal (operandIndex index) v)))

end Sys2Proof.Machine
end

