-- ==== Sys2Proof/Machine/Dispatch.lean ====
section
/-!
DEFINITION. Dispatch: exactly one instruction rule per opcode (spec/30_encoding.md rule R85).
-/

namespace Sys2Proof.Machine

/-- Execute: apply the instruction's rule to the state as Decode left it (R78, R85). -/
def exec (i : Instr) (s : State) : Host.Outcome State Fault Refusal :=
  match i with
  | .iadd => Sys2Proof.Machine.execIadd s
  | .isub => Sys2Proof.Machine.execIsub s
  | .imul => Sys2Proof.Machine.execImul s
  | .ilt => Sys2Proof.Machine.execIlt s
  | .ieq => Sys2Proof.Machine.execIeq s
  | .br target => Sys2Proof.Machine.execBr target s
  | .brt target => Sys2Proof.Machine.execBrt target s
  | .brf target => Sys2Proof.Machine.execBrf target s
  | .iconst imm => Sys2Proof.Machine.execIconst imm s
  | .load offset => Sys2Proof.Machine.execLoad offset s
  | .gload index => Sys2Proof.Machine.execGload index s
  | .store offset => Sys2Proof.Machine.execStore offset s
  | .gstore index => Sys2Proof.Machine.execGstore index s
  | .print => Sys2Proof.Machine.execPrint s
  | .pop => Sys2Proof.Machine.execPop s
  | .call target nargs => Sys2Proof.Machine.execCall target nargs s
  | .ret => Sys2Proof.Machine.execRet s
  | .halt => Sys2Proof.Machine.execHalt s

end Sys2Proof.Machine
end

