-- ==== Sys2Proof/Decode.lean ====
section
/-!
DEFINITION. The opcode map, the decoder and the encoder (spec/30_encoding.md), and the byte serialisation the
out-of-scope loader uses (spec/20_memory.md rule R56).
-/

namespace Sys2Proof

/-- Why a sequence of words is no instruction. -/
inductive DecodeError where
  /-- There is no word to read. -/
  | noWord
  /-- The opcode word is outside 1 to 18 (R86). -/
  | unknownOpcode
  /-- The operand words run past the last word (R83). -/
  | truncated
deriving DecidableEq, Repr

/-- What the decoder answers: an instruction and the words after it, or a rejection by name. -/
inductive Decoded where
  | ok (i : Instr) (rest : List Word)
  | rejected (e : DecodeError)
deriving DecidableEq, Repr

/-- The opcode map of R84 as one table, first half. -/
def opcodeTableLow : List (Nat × Opcode) :=
  [(1, .iadd), (2, .isub), (3, .imul), (4, .ilt), (5, .ieq), (6, .br), (7, .brt), (8, .brf), (9, .iconst)]

/-- The opcode map of R84 as one table, second half. -/
def opcodeTableHigh : List (Nat × Opcode) :=
  [(10, .load), (11, .gload), (12, .store), (13, .gstore), (14, .print), (15, .pop), (16, .call), (17, .ret),
    (18, .halt)]

/-- The opcode map of R84: value and opcode. -/
def opcodeTable : List (Nat × Opcode) := opcodeTableLow ++ opcodeTableHigh

/-- `arity(op)` of R84: how many inline operand words follow the opcode word. -/
def Opcode.arity : Opcode → Nat
  | .iadd => 0 | .isub => 0 | .imul => 0 | .ilt => 0 | .ieq => 0
  | .br => 1 | .brt => 1 | .brf => 1
  | .iconst => 1 | .load => 1 | .gload => 1 | .store => 1 | .gstore => 1
  | .print => 0 | .pop => 0
  | .call => 2 | .ret => 0
  | .halt => 0

/-- The opcode a word selects: compared at full width, signed reading against the table's value (R72, R73). -/
def opcodeOfWord (w : Word) : Option Opcode :=
  (opcodeTable.find? (fun row => decide (s32 w = row.1))).map (fun row => row.2)

/-- The instruction of an opcode with its operand words `o1`, `o2` (R71, R75). -/
def Opcode.instr (op : Opcode) (o1 o2 : Word) : Instr :=
  match op with
  | .iadd => .iadd | .isub => .isub | .imul => .imul | .ilt => .ilt | .ieq => .ieq
  | .br => .br o1 | .brt => .brt o1 | .brf => .brf o1
  | .iconst => .iconst o1 | .load => .load o1 | .gload => .gload o1 | .store => .store o1 | .gstore => .gstore o1
  | .print => .print | .pop => .pop
  | .call => .call o1 o2 | .ret => .ret
  | .halt => .halt

/-- Decode the instruction at the head of a sequence of words (R80): the opcode first, then whether all its operand
words are there, then the operands. -/
def decode : List Word → Decoded
  | [] => .rejected .noWord
  | w :: rest =>
    match opcodeOfWord w with
    | none => .rejected .unknownOpcode
    | some op =>
      if rest.length < op.arity then .rejected .truncated
      else .ok (op.instr (rest.getD 0 0) (rest.getD 1 0)) (rest.drop op.arity)

/-- The value of R84 for an opcode, read from the same table. -/
def Opcode.value (op : Opcode) : Nat :=
  ((opcodeTable.find? (fun row => decide (row.2 = op))).map (fun row => row.1)).getD 0

/-- The words of an instruction: its opcode word, then its operand words (R70, R71). -/
def encode (i : Instr) : List Word := BitVec.ofNat 32 i.opcode.value :: i.operands

/-- The words an instruction of the opcode table occupies, the longest instruction having three (R71). Bit 0 of `w` is
the least significant bit of the first word; bits from `nbits` on are 0. -/
def tableWords (nbits w : Nat) : List Word :=
  let v := w % 2 ^ nbits
  [BitVec.ofNat 32 v, BitVec.ofNat 32 (v / 2 ^ 32), BitVec.ofNat 32 (v / 2 ^ 64)]

/-- The instruction the decoder reads from an instruction whose bits are `w`. -/
def decodeTableWord (nbits w : Nat) : Option Instr :=
  match decode (tableWords nbits w) with
  | .ok i _ => some i
  | .rejected _ => none

/-- A word from its four bytes, the first at the lowest address (R56). -/
def wordOfBytes (order : ByteOrder) (b0 b1 b2 b3 : BitVec 8) : Word :=
  match order with
  | .little => BitVec.append b3 (BitVec.append b2 (BitVec.append b1 b0))
  | .big => BitVec.append b0 (BitVec.append b1 (BitVec.append b2 b3))

/-- The words of a byte serialisation; none when the bytes do not fill whole words (R56, log 18). -/
def wordsOfBytes (order : ByteOrder) : List (BitVec 8) → Option (List Word)
  | [] => some []
  | b0 :: b1 :: b2 :: b3 :: rest => (wordsOfBytes order rest).map (fun ws => wordOfBytes order b0 b1 b2 b3 :: ws)
  | _ => none

/-- The four bytes of a word, the first at the lowest address (R56). -/
def bytesOfWord (order : ByteOrder) (w : Word) : List (BitVec 8) :=
  match order with
  | .little => [w.extractLsb' 0 8, w.extractLsb' 8 8, w.extractLsb' 16 8, w.extractLsb' 24 8]
  | .big => [w.extractLsb' 24 8, w.extractLsb' 16 8, w.extractLsb' 8 8, w.extractLsb' 0 8]

/-- The byte serialisation of a sequence of words (R56). -/
def bytesOfWords (order : ByteOrder) (ws : List Word) : List (BitVec 8) := ws.flatMap (bytesOfWord order)

end Sys2Proof
end

