-- ==== Sys2Proof/Machine/Fetch.lean ====
section
/-!
DEFINITION. The Fetch and Decode phases of the engine cycle (spec/30_encoding.md rules R78 to R83) and the trace record
(spec/10_state.md rule R43).
-/

namespace Sys2Proof.Machine

/-- What Fetch and Decode end in. -/
inductive Fetched where
  /-- The step is over: an implicit halt, a fault, or no step at all. -/
  | done (r : Result)
  /-- Decode completed: the instruction and the state Execute sees. -/
  | dispatch (i : Instr) (s : State)

/-- The fault kind a rejected decode raises (R80, R83); `noWord` cannot arise below CODE_LEN (log 17). -/
def decodeFaultKind : DecodeError → FaultKind
  | .noWord => .programBoundsError
  | .unknownOpcode => .unknownOpcode
  | .truncated => .programBoundsError

/-- The trace record of an instruction, after decode and before execute (R43). -/
def State.traceRecord (s : State) (i : Instr) : TraceRecord :=
  { cur := s.cur, opcode := i.opcode, operands := i.operands, sp := s.sp, stack := s.stackWords,
    globals := s.globalWords }

/-- `if TRACE then produce trace record` (R80). -/
def State.traceInstr (s : State) (i : Instr) : State := if s.traceOn then s.emitTrace (s.traceRecord i) else s

/-- The state Execute sees: `cur` at the instruction, `ip` past it, the record produced (R23, R80). -/
def State.decoded (s : State) (i : Instr) : State :=
  (((s.setCur s.ip).setIp (s.ip + i.size))).traceInstr i

/-- Fetch and Decode of a running engine (R79, R80). -/
def State.fetchRunning (s : State) : Fetched :=
  if s.ip = s.codeLen then .done (.next s.halt)
  else if s.codeLen < s.ip then .done ((s.setCur s.ip).raise .programBoundsError)
  else
    match decode (s.code.drop s.ip) with
    | .rejected e => .done ((s.setCur s.ip).raise (decodeFaultKind e))
    | .ok i _ => .dispatch i (s.decoded i)

/-- Fetch and Decode: the engine takes a step only while Running (R78; log 7). -/
def State.fetch (s : State) : Fetched :=
  match s.runState with
  | .idle => .done (.fault .engineIdle)
  | .halted => .done (.fault .engineHalted)
  | .faulted => .done (.fault .engineFaulted)
  | .running => s.fetchRunning

/-- The program `code` with the words `ws` stored from index `a` on, the rest of it kept. -/
def placeWords (code : List Word) (a : Nat) (ws : List Word) : List Word :=
  code.take a ++ List.replicate (a - code.length) 0 ++ ws ++ code.drop (a + ws.length)

/-- The engine Running with the words `ws` in the program at `ip`: what a load and a start bring about, nothing else
changed (log 9). -/
def State.withProgramAtIp (s : State) (ws : List Word) : State :=
  { s with code := placeWords s.code s.ip ws }.enterRunning

end Sys2Proof.Machine
end

