-- ==== Sys2Proof/Machine/Start.lean ====
section
/-!
DEFINITION. What the host does to the engine: the loader's byte order (spec/20_memory.md rule R56) and the start of a
run (spec/70_reset_and_hazards.md rules R220 to R222).
-/

namespace Sys2Proof.Machine

/-- The program words of a byte serialisation in the machine's LOADER_BYTE_ORDER (R56; log 18). -/
def State.loadWords (s : State) (bytes : List (BitVec 8)) : Option (List Word) :=
  wordsOfBytes s.params.loaderByteOrder bytes

/-- Start accepts these run inputs (R222). -/
def State.startAccepted (s : State) (code : List Word) (gCap : Nat) : Bool :=
  !decide (s.params.codeMax < code.length ∨ s.params.gMax < gCap)

/-- The state at the start of a run (R46, R220); `S`, `F` and `cur` are not initialised, the trace stream is emptied
(log 10). -/
def State.started (s : State) (code : List Word) (entry gCap : Nat) (trace : Bool) : State :=
  { s with
    code := code, entry := entry, gCap := gCap, traceOn := trace
    ip := entry, sp := -1, fp := -1, globals := [], out := [], trace := [] }.enterRunning

/-- Start (R220): given by the host in any state; refused beyond CODE_MAX or G_MAX (R222; log 16). -/
def State.start (s : State) (code : List Word) (entry gCap : Nat) (trace : Bool) : Result :=
  if s.startAccepted code gCap then .next (s.started code entry gCap trace) else .refused .startRefused

end Sys2Proof.Machine
end

