-- ==== Sys2Proof/Machine/Status.lean ====
section
/-!
DEFINITION. The status register as the host reads it (spec/10_state.md rules R41, R47) and the result of a run
(spec/60_exceptions.md rule R209).
-/

namespace Sys2Proof.Machine

/-- The code of `STATUS.run_state` (R41). -/
def RunState.code : RunState → Nat
  | .idle => 0
  | .running => 1
  | .halted => 2
  | .faulted => 3

/-- The code of a fault kind (R190). -/
def FaultKind.code : FaultKind → Nat
  | .unknownOpcode => 1
  | .stackUnderflow => 2
  | .stackOverflow => 3
  | .invalidGlobalIndex => 4
  | .invalidLocalOffset => 5
  | .unbalancedReturn => 6
  | .programBoundsError => 7

/-- The code of `STATUS.fault_kind`: 0 for none (R41, R190). -/
def faultKindCode : Option FaultKind → Nat
  | none => 0
  | some k => k.code

/-- The port `status` (R41, R47): `run_state` in bits 1:0, `fault_kind` in bits 4:2, the reserved bits 0 (log 15). -/
def State.statusPort (s : State) : Word := BitVec.ofNat 32 (s.runState.code + 4 * faultKindCode s.faultKind)

/-- The result of a run (R209). -/
inductive RunResult where
  | halted
  | faulted (kind : FaultKind) (offset : Word)
deriving DecidableEq, Repr

/-- The result a state shows, if the run has ended in it (R209); an abandoned or running run has none (R210). -/
def State.result? (s : State) : Option RunResult :=
  match s.runState with
  | .halted => some .halted
  | .faulted => s.faultKind.map (fun k => .faulted k s.faultOffset)
  | .idle => none
  | .running => none

end Sys2Proof.Machine
end

