-- ==== Sys2Proof/Machine/Step.lean ====
section
/-!
DEFINITION. One step of the engine: Fetch, Decode, Execute (spec/30_encoding.md rule R78).
-/

namespace Sys2Proof.Machine

/-- One atomic step (R16, R78). -/
def step (s : State) : Host.Outcome State Fault Refusal :=
  match s.fetch with
  | .done r => r
  | .dispatch i s' => exec i s'

/-- The step as R48 types it: the parameters are an argument of the step, and the state it takes and gives is the
engine's alone. -/
def stepWith (p : Params) (e : EngineState) : Host.Outcome EngineState Fault Refusal :=
  match step (e.withParams p) with
  | .next t => .next t.toEngineState
  | .fault r => .fault r
  | .refused r => .refused r

/-- The state in which the next step fetches the opcode-table word `w` of `nbits` bits (log 9). -/
def State.withFetchWord (s : State) (nbits w : Nat) : State := s.withProgramAtIp (tableWords nbits w)

end Sys2Proof.Machine
end

