-- ==== Sys2Proof/Safety.lean ====
section
/-!
DEFINITION. The terms claims are stated in: the invariant of the engine (spec/10_state.md rule R49), what two states
have in common, and the call chain of a run (spec/44_call_return.md rule R170).
-/

namespace Sys2Proof.Machine

/-- The number of active frames, `fp + 1` (R37). -/
abbrev State.activeFrames (s : State) : Nat := (s.fp + 1).toNat

/-- What holds of the engine at every instruction boundary (R49), with what its proof needs beside it: where return
addresses point (R164), the canonical form of the word spaces, and what STATUS, FAULT_OFFSET and `ip` say of a faulted
run (R41, R191, R196). -/
structure State.Inv (s : State) : Prop where
  /-- R6, R8. -/
  params : s.params.Legal
  /-- R9, R222. -/
  codeFits : s.codeLen ≤ s.params.codeMax
  /-- R10, R222. -/
  globalsFit : s.gCap ≤ s.params.gMax
  /-- R49 (1): the range of `sp`. -/
  spRange : -1 ≤ s.sp ∧ s.sp ≤ s.params.stackCap - 1
  /-- R49 (1): `Floor() <= sp` in a called frame. -/
  floorLe : ∀ r ∈ s.frame? s.fp, r.savedSp ≤ s.sp
  /-- R49 (2): the range of `fp`. -/
  fpRange : -1 ≤ s.fp ∧ s.fp ≤ s.params.maxFrames - 1
  /-- R49 (2), R49 (3) and R164: each active frame has its record. -/
  chain : ∀ k < s.activeFrames, ∃ r ∈ cellGet s.frames k,
    r.savedFp = (k : Int) - 1 ∧ -1 ≤ r.savedSp ∧ r.retIp ≤ s.codeLen
  /-- R49 (3): the floors of the active frames rise. -/
  floors : ∀ k, k + 1 < s.activeFrames → ∀ r ∈ cellGet s.frames k, ∀ r' ∈ cellGet s.frames (k + 1),
    r.savedSp ≤ r'.savedSp
  /-- R49 (4): the range of `ip`. -/
  ipRange : s.ip ≤ s.codeLen ∨ (s.ip = s.entry ∧ s.codeLen < s.entry)
  /-- The stack is canonical and lists no slot outside `[0, STACK_CAP)` (R26). -/
  stackForm : s.stack.wf ∧ ∀ c ∈ s.stack, c.1 < s.params.stackCap
  /-- R49 (5): the global store is canonical and lists no slot outside `[0, G_CAP)`. -/
  globalsForm : s.globals.wf ∧ ∀ c ∈ s.globals, c.1 < s.gCap
  /-- The frame store is canonical and lists no record outside `[0, MAX_FRAMES)` (R36). -/
  framesForm : CellsSorted s.frames ∧ ∀ c ∈ s.frames, c.1 < s.params.maxFrames
  /-- Every listed record's locals are canonical and inside `[0, FRAME_LOCALS)` (R36, R38). -/
  localsForm : ∀ c ∈ s.frames, c.2.locals.wf ∧ ∀ l ∈ c.2.locals, l.1 < s.params.frameLocals
  /-- R41: `fault_kind` is not 0 exactly in a faulted run. -/
  faultKindForm : s.faultKind = none ↔ s.runState ≠ .faulted
  /-- R41: FAULT_OFFSET is 0 unless the run is faulted. -/
  faultOffsetForm : s.runState ≠ .faulted → s.faultOffset = 0
  /-- R191, R196: in a faulted run `ip` and FAULT_OFFSET give the faulting instruction's offset. -/
  faultedForm : s.runState = .faulted → s.ip = s.cur ∧ s.faultOffset = faultOffsetOf s.cur
  /-- R43: no trace record without TRACE. -/
  traceForm : s.traceOn = false → s.trace = []

/-! ### What two states have in common -/

/-- The parameters and the latched run inputs agree (R44, R48). -/
def State.SameInputs (s t : State) : Prop :=
  t.params = s.params ∧ t.code = s.code ∧ t.entry = s.entry ∧ t.gCap = s.gCap ∧ t.traceOn = s.traceOn

/-- STATUS and FAULT_OFFSET agree (R41). -/
def State.SameStatus (s t : State) : Prop :=
  t.runState = s.runState ∧ t.faultKind = s.faultKind ∧ t.faultOffset = s.faultOffset

/-- Every stack slot but those `changed` names reads the same. -/
def State.SameStackBut (s t : State) (changed : Int → Prop) : Prop := ∀ j, ¬changed j → t.slot? j = s.slot? j

/-- Every stack slot reads the same. -/
def State.SameStack (s t : State) : Prop := ∀ j, t.slot? j = s.slot? j

/-- Every frame record but `F[k]` is the same. -/
def State.SameFramesBut (s t : State) (k : Int) : Prop := ∀ j, j ≠ k → t.frame? j = s.frame? j

/-- Every frame record is the same. -/
def State.SameFrames (s t : State) : Prop := ∀ j, t.frame? j = s.frame? j

/-- Every global slot but `G[a]` reads the same. -/
def State.SameGlobalsBut (s t : State) (a : Nat) : Prop := ∀ b, b ≠ a → t.globals.read b = s.globals.read b

/-- Every global slot reads the same. -/
def State.SameGlobals (s t : State) : Prop := ∀ b, t.globals.read b = s.globals.read b

/-- OUT and the trace stream are the same. -/
def State.SameStreams (s t : State) : Prop := t.out = s.out ∧ t.trace = s.trace

/-- The run inputs, STATUS, FAULT_OFFSET and `cur` are the same. -/
def State.SameCore (s t : State) : Prop := s.SameInputs t ∧ s.SameStatus t ∧ t.cur = s.cur

/-- Everything but `sp`, `S` and `ip` is the same. -/
def State.SameBesidesStackAndIp (s t : State) : Prop :=
  s.SameCore t ∧ t.fp = s.fp ∧ s.SameFrames t ∧ s.SameGlobals t ∧ s.SameStreams t

/-- Everything but `sp` and `S` is the same. -/
def State.SameBesidesStack (s t : State) : Prop := t.ip = s.ip ∧ s.SameBesidesStackAndIp t

/-- Everything but the trace enable and the trace stream is the same (R43, R211). -/
def State.SameButTrace (s t : State) : Prop := t = { s with traceOn := t.traceOn, trace := t.trace }

/-- Everything is the same but the stack slots above `sp` and the frame records above `fp` (R28, R37). -/
def State.SameVisible (s t : State) : Prop :=
  t = { s with stack := t.stack, frames := t.frames } ∧
    (∀ j ≤ s.sp, t.slot? j = s.slot? j) ∧ (∀ k ≤ s.fp, t.frame? k = s.frame? k)

/-- Two outcomes of a step that differ in the trace alone. -/
def resultsSameButTrace (r r' : Result) : Prop :=
  match r, r' with
  | .next s, .next t => s.SameButTrace t
  | .fault a, .fault b => a = b
  | .refused a, .refused b => a = b
  | _, _ => False

/-- R190, its column "raised by": the fault kinds an instruction can raise in Execute. -/
def kindsRaisedBy : Instr → List FaultKind
  | .iadd => [.stackUnderflow] | .isub => [.stackUnderflow] | .imul => [.stackUnderflow]
  | .ilt => [.stackUnderflow] | .ieq => [.stackUnderflow]
  | .br _ => [.programBoundsError]
  | .brt _ => [.stackUnderflow, .programBoundsError] | .brf _ => [.stackUnderflow, .programBoundsError]
  | .iconst _ => [.stackOverflow]
  | .load _ => [.invalidLocalOffset, .stackOverflow] | .gload _ => [.invalidGlobalIndex, .stackOverflow]
  | .store _ => [.invalidLocalOffset, .stackUnderflow] | .gstore _ => [.invalidGlobalIndex, .stackUnderflow]
  | .print => [.stackUnderflow] | .pop => [.stackUnderflow]
  | .call _ _ => [.invalidLocalOffset, .stackUnderflow, .stackOverflow, .programBoundsError]
  | .ret => [.unbalancedReturn]
  | .halt => []

/-! ### Runs -/

/-- `n` steps from `s` lead to `t`, and in every state on the way, the last one included, at least `k + 1` frames are
active: no frame up to `F[k]` has been returned from (R170). -/
inductive State.RunsAbove (k : Int) : Nat → State → State → Prop where
  | refl (s : State) (h : k ≤ s.fp) : State.RunsAbove k 0 s s
  | next (n : Nat) (s t u : State) (h : k ≤ s.fp) (hs : step s = .next t)
      (hr : State.RunsAbove k n t u) : State.RunsAbove k (n + 1) s u

end Sys2Proof.Machine
end

