-- ==== Sys2Proof/WellFormed.lean ====
section
/-!
DEFINITION. What a program's producer owes (spec/70_reset_and_hazards.md rule R226) and the operand ranges of
spec/30_encoding.md rule R75. The engine checks none of this before an instruction executes: every operand word is a
legal encoding (R74), so encoding and decoding need no such check.
-/

namespace Sys2Proof

/-- The bounds the operand ranges of R75 are measured against. -/
structure Bounds where
  codeLen : Nat
  gCap : Nat
  frameLocals : Nat
deriving DecidableEq, Repr

/-- The operands of one instruction lie in the ranges of R75. -/
def Instr.wellFormed (b : Bounds) : Instr → Bool
  | .iadd => true | .isub => true | .imul => true | .ilt => true | .ieq => true
  | .br target => decide (0 ≤ s32 target ∧ s32 target ≤ b.codeLen)
  | .brt target => decide (0 ≤ s32 target ∧ s32 target ≤ b.codeLen)
  | .brf target => decide (0 ≤ s32 target ∧ s32 target ≤ b.codeLen)
  | .iconst _ => true
  | .load offset => decide (0 ≤ s32 offset ∧ s32 offset < b.frameLocals)
  | .gload index => decide (0 ≤ s32 index ∧ s32 index < b.gCap)
  | .store offset => decide (0 ≤ s32 offset ∧ s32 offset < b.frameLocals)
  | .gstore index => decide (0 ≤ s32 index ∧ s32 index < b.gCap)
  | .print => true | .pop => true
  | .call target nargs =>
    decide (0 ≤ s32 target ∧ s32 target ≤ b.codeLen) && decide (0 ≤ s32 nargs ∧ s32 nargs ≤ b.frameLocals)
  | .ret => true
  | .halt => true

/-- The offsets of the opcode words of instructions laid out one after the other from offset `at_` (R70). -/
def Instr.offsets (at_ : Nat) : List Instr → List Nat
  | [] => []
  | i :: is => at_ :: Instr.offsets (at_ + i.size) is

/-- The control target of an instruction, if it has one (R75). -/
def Instr.target? : Instr → Option Word
  | .br target => some target
  | .brt target => some target
  | .brf target => some target
  | .call target _ => some target
  | .iadd => none | .isub => none | .imul => none | .ilt => none | .ieq => none
  | .iconst _ => none | .load _ => none | .gload _ => none | .store _ => none | .gstore _ => none
  | .print => none | .pop => none | .ret => none | .halt => none

/-- The first obligation of R226 for one instruction: its control target is the offset of an opcode word. -/
def Instr.targetNamesOpcode (offsets : List Nat) (i : Instr) : Bool :=
  match i.target? with
  | none => true
  | some t => offsets.any (fun o => decide (s32 t = o))

/-- The first obligation of R226 for a return address: the offset after a CALL is that of an opcode word. -/
def Instr.returnNamesOpcode (offsets : List Nat) (offset : Nat) (i : Instr) : Bool :=
  match i with
  | .call _ _ => offsets.contains (offset + i.size)
  | _ => true

/-- What the producer of a program owes (R226): control targets and return addresses name opcode words, global
indices lie below G_CAP, and locals fit in FRAME_LOCALS. -/
def programWellFormed (b : Bounds) (is : List Instr) : Bool :=
  let offsets := Instr.offsets 0 is
  is.all (Instr.wellFormed b) && is.all (Instr.targetNamesOpcode offsets) &&
    (offsets.zip is).all (fun p => Instr.returnNamesOpcode offsets p.1 p.2)

end Sys2Proof
end

