-- ==== Sys2Proof/Certificates/Slice0/Obligations.lean ====
section
/-!
DEFINITION. The statements for the provers. Each docstring names the rule of spec/ it formalises.
-/

open Sys2Proof Sys2Proof.Machine

/-! ### Encoding and decoding -/

/-- R84, R71, R73, R83: words written out from the opcode map decode to the instructions they stand for, and words
outside it are rejected by name. -/
def Obligations.DecodeReadsTheOpcodeMap : Prop :=
  decode [1] = .ok .iadd [] ∧ decode [5, 5] = .ok .ieq [5] ∧
    decode [6, 0xFFFFFFFF] = .ok (.br (-1)) [] ∧ decode [9, 0x80000000] = .ok (.iconst 0x80000000) [] ∧
    decode [13, 2, 18] = .ok (.gstore 2) [18] ∧ decode [14] = .ok .print [] ∧
    decode [16, 0, 2] = .ok (.call 0 2) [] ∧ decode [18] = .ok .halt [] ∧
    decode [0] = .rejected .unknownOpcode ∧ decode [19] = .rejected .unknownOpcode ∧
    decode [0x109] = .rejected .unknownOpcode ∧ decode [0x80000001] = .rejected .unknownOpcode ∧
    decode [16, 0] = .rejected .truncated

/-- R70, R71, R73, R74, R76: the decoder reads an instruction from a sequence of words exactly when the sequence
begins with that instruction's words, with every operand at every value, and it leaves the words after them. -/
def Obligations.DecodeAcceptsExactlyTheEncodings : Prop :=
  ∀ (ws : List Word) (i : Instr) (rest : List Word), decode ws = .ok i rest ↔ ws = encode i ++ rest

/-- R86: an opcode word outside 1 to 18 raises UnknownOpcode at the instruction, before any operand is read. -/
def Obligations.UnknownOpcodeWordFaults : Prop :=
  ∀ (s : State) (w : Word), s.runState = .running → s.codeAt? s.ip = some w → (s32 w < 1 ∨ 18 < s32 w) →
    step s = .next ((s.setCur s.ip).faulted .unknownOpcode)

/-- R83: an instruction whose operand words would extend past the last word raises ProgramBoundsError at the
instruction. -/
def Obligations.TruncatedInstructionFaults : Prop :=
  ∀ (s : State) (i : Instr), s.runState = .running → s.ip < s.codeLen → s.codeAt? s.ip = (encode i).head? →
    s.codeLen < s.ip + i.size → step s = .next ((s.setCur s.ip).faulted .programBoundsError)

/-- The model's choice (log 18), for the byte order R56 leaves to the loader: in either byte order, the loader of four
bytes a word reads back the words it serialised. -/
def Obligations.LoaderReadsBackSerialisedWords : Prop :=
  ∀ (order : ByteOrder) (ws : List Word), wordsOfBytes order (bytesOfWords order ws) = some ws

/-! ### The engine cycle -/

/-- R78, R80, R85, R23: when the words at `ip` decode, the step is the instruction's rule on the state in which `cur`
is the instruction's offset and `ip` the next sequential one; the trace stream apart, nothing else has changed. -/
def Obligations.StepRunsTheDecodedInstruction : Prop :=
  ∀ (s : State) (i : Instr) (rest : List Word), s.runState = .running → s.ip < s.codeLen →
    decode (s.code.drop s.ip) = .ok i rest →
    ∃ s' : State, step s = exec i s' ∧ s'.cur = s.ip ∧ s'.ip = s.ip + 1 + i.operands.length ∧
      s' = { s with cur := s.ip, ip := s'.ip, trace := s'.trace }

/-- R43: with TRACE, one record per decoded instruction, showing `cur`, opcode, operands, `sp`, `S[0 .. sp]` and
`G[0 .. G_CAP-1]` before execute; without TRACE, none. -/
def Obligations.TraceRecordShowsTheDecodedState : Prop :=
  ∀ (s : State) (i : Instr) (rest : List Word), s.runState = .running → s.ip < s.codeLen →
    decode (s.code.drop s.ip) = .ok i rest →
    ∃ s' : State, step s = exec i s' ∧ s'.ip = s.ip + i.size ∧ s'.stack = s.stack ∧
      (s.traceOn = false → s'.trace = s.trace) ∧
      (s.traceOn = true → ∃ r : TraceRecord, s'.trace = s.trace ++ [r] ∧ r.cur = s.ip ∧ r.opcode = i.opcode ∧
        r.operands = i.operands ∧ r.sp = s.sp ∧
        r.stack.length = (s.sp + 1).toNat ∧ (∀ j : Nat, (j : Int) ≤ s.sp → r.stack[j]? = some (s.stack.read j)) ∧
        r.globals.length = s.gCap ∧ (∀ j < s.gCap, r.globals[j]? = some (s.globals.read j)))

/-- R82, R78: a fetch at `ip = CODE_LEN` ends the run successfully and changes nothing else; no further step follows.
That a missing step reads as a named fault of the model is log 7. -/
def Obligations.FetchAtTheEndHalts : Prop :=
  ∀ s : State, s.runState = .running → s.ip = s.codeLen →
    ∃ t, step s = .next t ∧ t = { s with runState := .halted } ∧ t.result? = some .halted ∧
      step t = .fault .engineHalted

/-- R81, R196: a fetch with `ip > CODE_LEN` raises ProgramBoundsError with FAULT_OFFSET = `ip` (one of 2^32 or more
does not fit the register, log 8) and leaves everything but `cur`, STATUS and FAULT_OFFSET as it stood; only a run
whose ENTRY is past the end can reach it. -/
def Obligations.FetchPastTheEndFaults : Prop :=
  ∀ s : State, s.runState = .running → s.codeLen < s.ip →
    (∃ t, step s = .next t ∧
      t = { s with cur := s.ip, runState := .faulted, faultKind := some .programBoundsError,
                   faultOffset := t.faultOffset } ∧
      (s.ip < 2 ^ 32 → t.faultOffset.toNat = s.ip)) ∧
    (s.Inv → s.ip = s.entry ∧ s.codeLen < s.entry)

/-- R78, R198, R210: the engine takes no step unless it is Running, and a Running engine has no result. That a missing
step reads as a named fault of the model is log 7. -/
def Obligations.NoStepUnlessRunning : Prop :=
  ∀ s : State, (s.runState = .idle → step s = .fault .engineIdle) ∧
    (s.runState = .halted → step s = .fault .engineHalted) ∧
    (s.runState = .faulted → step s = .fault .engineFaulted) ∧
    (s.runState = .running → s.result? = none)

/-! ### Power-on and start -/

/-- R223: before the first start STATUS is Idle with fault kind 0, FAULT_OFFSET is 0, and the engine takes no step. -/
def Obligations.PowerOnIsIdle : Prop :=
  (∃ p, State.reset = State.powerOn p) ∧
    ∀ p : Params, (State.powerOn p).runState = .idle ∧ (State.powerOn p).statusPort = 0 ∧
      (State.powerOn p).faultOffset = 0 ∧ (State.powerOn p).result? = none ∧
      ∀ t, step (State.powerOn p) ≠ .next t

/-- R220, R222, R46: a start in any state is refused beyond CODE_MAX or G_MAX, and else sets every piece of state the
rules read. -/
def Obligations.StartSetsTheRunState : Prop :=
  ∀ (s : State) (code : List Word) (entry gCap : Nat) (trace : Bool),
    if s.params.codeMax < code.length ∨ s.params.gMax < gCap then
      s.start code entry gCap trace = .refused .startRefused
    else ∃ t, s.start code entry gCap trace = .next t ∧
      t.code = code ∧ t.codeLen = code.length ∧ t.entry = entry ∧ t.gCap = gCap ∧ t.traceOn = trace ∧
      t.ip = entry ∧ t.sp = -1 ∧ t.fp = -1 ∧ (∀ i, t.globals.read i = 0) ∧ t.out = [] ∧
      t.runState = .running ∧ t.faultKind = none ∧ t.faultOffset = 0 ∧ t.params = s.params

/-- R221: the entry is checked at the first fetch: at CODE_LEN the run halts at once, past it the run faults at ENTRY,
below it the step is the rule of the instruction at ENTRY, or the decode fault of the words there. -/
def Obligations.EntryIsCheckedAtTheFirstFetch : Prop :=
  ∀ (s t : State) (code : List Word) (entry gCap : Nat) (trace : Bool),
    s.start code entry gCap trace = .next t →
    (entry = code.length → ∃ u, step t = .next u ∧ u.result? = some .halted ∧ u.out = []) ∧
    (code.length < entry → ∃ u, step t = .next u ∧ u.runState = .faulted ∧
      u.faultKind = some .programBoundsError ∧ (entry < 2 ^ 32 → u.faultOffset.toNat = entry) ∧ u.out = []) ∧
    (entry < code.length →
      (∀ i rest, decode (code.drop entry) = .ok i rest →
        ∃ t' : State, step t = exec i t' ∧ t' = { t with cur := entry, ip := entry + i.size, trace := t'.trace }) ∧
      (∀ e, decode (code.drop entry) = .rejected e →
        step t = .next ((t.setCur entry).faulted (decodeFaultKind e))))

/-! ### Faults and status -/

/-- R191, R196, R198: fault entry sets `ip` to the faulting instruction, STATUS to Faulted with the kind, FAULT_OFFSET
to the offset (one of 2^32 or more does not fit the register, log 8), and nothing else; no step follows, and the run's
result is the kind and the offset. That a missing step reads as a named fault of the model is log 7. -/
def Obligations.FaultEntryRecordsKindAndOffset : Prop :=
  ∀ (s : State) (k : FaultKind), ∃ t, s.raise k = .next t ∧
    t = { s with ip := s.cur, runState := .faulted, faultKind := some k, faultOffset := t.faultOffset } ∧
    (s.cur < 2 ^ 32 → t.faultOffset.toNat = s.cur) ∧
    t.result? = some (.faulted k t.faultOffset) ∧ step t = .fault .engineFaulted

/-- R16, R194: an instruction that raises a fault has no effect but the fault's entry. -/
def Obligations.FaultingInstructionWritesNothing : Prop :=
  ∀ (i : Instr) (s t : State), s.runState ≠ .faulted → exec i s = .next t → t.runState = .faulted →
    ∃ k, t = { s with ip := s.cur, runState := .faulted, faultKind := some k, faultOffset := t.faultOffset } ∧
      (s.cur < 2 ^ 32 → t.faultOffset.toNat = s.cur)

/-- R190, R192: in Execute an instruction raises only the fault kinds that list it in the column "raised by". -/
def Obligations.EachInstructionRaisesItsKinds : Prop :=
  ∀ (i : Instr) (s t : State) (k : FaultKind), s.faultKind = none → exec i s = .next t → t.faultKind = some k →
    k ∈ kindsRaisedBy i

/-- R41, R190: the layout and the codes of the status word; the reserved bits read 0. -/
def Obligations.StatusWordLayout : Prop :=
  ∀ s : State,
    s.statusPort.toNat % 4 =
      (match s.runState with | .idle => 0 | .running => 1 | .halted => 2 | .faulted => 3) ∧
    s.statusPort.toNat / 4 % 8 =
      (match s.faultKind with
        | none => 0 | some .unknownOpcode => 1 | some .stackUnderflow => 2 | some .stackOverflow => 3
        | some .invalidGlobalIndex => 4 | some .invalidLocalOffset => 5 | some .unbalancedReturn => 6
        | some .programBoundsError => 7) ∧
    s.statusPort.toNat / 32 = 0

/-! ### ALU -/

/-- R100 to R105: IADD, ISUB and IMUL take `a` below `b` and leave the exact result wrapped to 32 bits; with fewer
than two elements in the frame they raise StackUnderflow. -/
def Obligations.ArithmeticLeavesTheWrappedResult : Prop :=
  ∀ p ∈ [(Instr.iadd, (1 : Word), fun a b : Int => a + b), (Instr.isub, 2, fun a b => a - b),
      (Instr.imul, 3, fun a b => a * b)],
    encode p.1 = [p.2.1] ∧ ∀ (s : State) (floor : Int), s.floor? = some floor →
      (s.sp - floor < 2 → exec p.1 s = .next (s.faulted .stackUnderflow)) ∧
      ∀ a b, 2 ≤ s.sp - floor → s.slot? (s.sp - 1) = some a → s.slot? s.sp = some b →
        ∃ t, exec p.1 s = .next t ∧ t.sp = s.sp - 1 ∧ t.slot? t.sp = some (wrap32 (p.2.2 (s32 a) (s32 b))) ∧
          s.SameStackBut t (fun j => j = s.sp - 1) ∧ s.SameBesidesStack t

/-- R106 to R109: ILT and IEQ leave exactly 1 or exactly 0, ILT comparing signed values and IEQ whole words. -/
def Obligations.ComparisonLeavesOneOrZero : Prop :=
  ∀ p ∈ [(Instr.ilt, (4 : Word), fun a b : Word => decide (s32 a < s32 b)),
      (Instr.ieq, 5, fun a b => decide (u32 a = u32 b))],
    encode p.1 = [p.2.1] ∧ ∀ (s : State) (floor : Int), s.floor? = some floor →
      (s.sp - floor < 2 → exec p.1 s = .next (s.faulted .stackUnderflow)) ∧
      ∀ a b, 2 ≤ s.sp - floor → s.slot? (s.sp - 1) = some a → s.slot? s.sp = some b →
        ∃ t, exec p.1 s = .next t ∧ t.sp = s.sp - 1 ∧
          t.slot? t.sp = some (if p.2.2 a b = true then 1 else 0) ∧
          s.SameStackBut t (fun j => j = s.sp - 1) ∧ s.SameBesidesStack t

/-! ### Branches -/

/-- R121, R120: BR goes to a target in `[0, CODE_LEN]` and raises ProgramBoundsError at any other. -/
def Obligations.BrGoesToTheTarget : Prop :=
  ∀ (target : Word), encode (.br target) = [6, target] ∧ ∀ s : State,
    if 0 ≤ s32 target ∧ s32 target ≤ s.codeLen then
      ∃ t, exec (.br target) s = .next t ∧ (t.ip : Int) = s32 target ∧ t.sp = s.sp ∧ s.SameStack t ∧
        s.SameBesidesStackAndIp t
    else exec (.br target) s = .next (s.faulted .programBoundsError)

/-- R122, R125: BRT pops its condition and goes to the target when it is not 0; the target is checked only then, after
the stack. -/
def Obligations.BrtBranchesOnNonzero : Prop :=
  ∀ (target : Word), encode (.brt target) = [7, target] ∧ ∀ (s : State) (floor : Int), s.floor? = some floor →
    (s.sp - floor < 1 → exec (.brt target) s = .next (s.faulted .stackUnderflow)) ∧
    ∀ c, 1 ≤ s.sp - floor → s.slot? s.sp = some c →
      (c ≠ 0 → ¬(0 ≤ s32 target ∧ s32 target ≤ s.codeLen) →
        exec (.brt target) s = .next (s.faulted .programBoundsError)) ∧
      (c ≠ 0 → 0 ≤ s32 target → s32 target ≤ s.codeLen →
        ∃ t, exec (.brt target) s = .next t ∧ (t.ip : Int) = s32 target ∧ t.sp = s.sp - 1 ∧ s.SameStack t ∧
          s.SameBesidesStackAndIp t) ∧
      (c = 0 → ∃ t, exec (.brt target) s = .next t ∧ t.sp = s.sp - 1 ∧ s.SameStack t ∧ s.SameBesidesStack t)

/-- R123, R125: BRF pops its condition and goes to the target when it is 0; the target is checked only then, after the
stack. -/
def Obligations.BrfBranchesOnZero : Prop :=
  ∀ (target : Word), encode (.brf target) = [8, target] ∧ ∀ (s : State) (floor : Int), s.floor? = some floor →
    (s.sp - floor < 1 → exec (.brf target) s = .next (s.faulted .stackUnderflow)) ∧
    ∀ c, 1 ≤ s.sp - floor → s.slot? s.sp = some c →
      (c = 0 → ¬(0 ≤ s32 target ∧ s32 target ≤ s.codeLen) →
        exec (.brf target) s = .next (s.faulted .programBoundsError)) ∧
      (c = 0 → 0 ≤ s32 target → s32 target ≤ s.codeLen →
        ∃ t, exec (.brf target) s = .next t ∧ (t.ip : Int) = s32 target ∧ t.sp = s.sp - 1 ∧ s.SameStack t ∧
          s.SameBesidesStackAndIp t) ∧
      (c ≠ 0 → ∃ t, exec (.brf target) s = .next t ∧ t.sp = s.sp - 1 ∧ s.SameStack t ∧ s.SameBesidesStack t)

/-- R124: for every word exactly one of BRT and BRF is taken, and both consume it. -/
def Obligations.ExactlyOneOfBrtAndBrfIsTaken : Prop :=
  ∀ (s : State) (floor : Int) (c target : Word), s.floor? = some floor → 1 ≤ s.sp - floor → s.slot? s.sp = some c →
    0 ≤ s32 target → s32 target ≤ s.codeLen →
    ∃ t u, exec (.brt target) s = .next t ∧ exec (.brf target) s = .next u ∧ t.sp = s.sp - 1 ∧ u.sp = s.sp - 1 ∧
      ((c ≠ 0 ∧ (t.ip : Int) = s32 target ∧ u.ip = s.ip) ∨ (c = 0 ∧ t.ip = s.ip ∧ (u.ip : Int) = s32 target))

/-- R126: a BR to itself runs forever: after any number of steps the engine is Running at the same `ip`. -/
def Obligations.BranchToItselfNeverEnds : Prop :=
  ∀ (s : State) (target : Word), s.runState = .running → s.codeAt? s.ip = some 6 →
    s.codeAt? (s.ip + 1) = some target → s32 target = s.ip →
    ∀ n, ∃ t, core.run n s = .next t ∧ t.runState = .running ∧ t.ip = s.ip ∧ t.sp = s.sp ∧ t.out = s.out

/-! ### Constants and storage -/

/-- R130, R131, R132: ICONST pushes its operand word unchanged, or raises StackOverflow when the stack is full. -/
def Obligations.IconstPushesItsOperand : Prop :=
  ∀ (imm : Word), encode (.iconst imm) = [9, imm] ∧ ∀ s : State,
    (s.sp = s.params.stackCap - 1 → exec (.iconst imm) s = .next (s.faulted .stackOverflow)) ∧
    (-1 ≤ s.sp → s.sp < s.params.stackCap - 1 →
      ∃ t, exec (.iconst imm) s = .next t ∧ t.sp = s.sp + 1 ∧ t.slot? t.sp = some imm ∧
        s.SameStackBut t (fun j => j = s.sp + 1) ∧ s.SameBesidesStack t)

/-- R133, R134, R135: LOAD pushes the active frame's local, the offset checked first, then the stack's room. -/
def Obligations.LoadPushesTheLocal : Prop :=
  ∀ (offset : Word), encode (.load offset) = [10, offset] ∧ ∀ s : State,
    (s.fp = -1 ∨ s32 offset < 0 ∨ s.params.frameLocals ≤ s32 offset →
      exec (.load offset) s = .next (s.faulted .invalidLocalOffset)) ∧
    ∀ (r : FrameRecord) (o : Nat), s.fp ≠ -1 → s.frame? s.fp = some r → s32 offset = o → o < s.params.frameLocals →
      (s.sp = s.params.stackCap - 1 → exec (.load offset) s = .next (s.faulted .stackOverflow)) ∧
      (-1 ≤ s.sp → s.sp < s.params.stackCap - 1 →
        ∃ t, exec (.load offset) s = .next t ∧ t.sp = s.sp + 1 ∧ t.slot? t.sp = some (r.locals.read o) ∧
          s.SameStackBut t (fun j => j = s.sp + 1) ∧ s.SameBesidesStack t)

/-- R136, R138: GLOAD pushes the global, the index checked first, then the stack's room; no frame is needed. -/
def Obligations.GloadPushesTheGlobal : Prop :=
  ∀ (index : Word), encode (.gload index) = [11, index] ∧ ∀ s : State,
    (s32 index < 0 ∨ s.gCap ≤ s32 index → exec (.gload index) s = .next (s.faulted .invalidGlobalIndex)) ∧
    ∀ g : Nat, s32 index = g → g < s.gCap →
      (s.sp = s.params.stackCap - 1 → exec (.gload index) s = .next (s.faulted .stackOverflow)) ∧
      (-1 ≤ s.sp → s.sp < s.params.stackCap - 1 →
        ∃ t, exec (.gload index) s = .next t ∧ t.sp = s.sp + 1 ∧ t.slot? t.sp = some (s.globals.read g) ∧
          s.SameStackBut t (fun j => j = s.sp + 1) ∧ s.SameBesidesStack t)

/-- R139, R140: STORE pops into the active frame's local and into nothing else, the offset checked first, then the
stack. -/
def Obligations.StorePopsIntoTheLocal : Prop :=
  ∀ (offset : Word), encode (.store offset) = [12, offset] ∧ ∀ s : State,
    (s.fp = -1 ∨ s32 offset < 0 ∨ s.params.frameLocals ≤ s32 offset →
      exec (.store offset) s = .next (s.faulted .invalidLocalOffset)) ∧
    ∀ (r : FrameRecord) (o : Nat), s.fp ≠ -1 → s.frame? s.fp = some r → s32 offset = o → o < s.params.frameLocals →
      (s.sp - r.savedSp < 1 → exec (.store offset) s = .next (s.faulted .stackUnderflow)) ∧
      ∀ v, 1 ≤ s.sp - r.savedSp → s.slot? s.sp = some v →
        ∃ t r', exec (.store offset) s = .next t ∧ t.sp = s.sp - 1 ∧ t.ip = s.ip ∧ t.fp = s.fp ∧
          t.frame? s.fp = some r' ∧ r'.locals.read o = v ∧ (∀ j, j ≠ o → r'.locals.read j = r.locals.read j) ∧
          r'.retIp = r.retIp ∧ r'.savedFp = r.savedFp ∧ r'.savedSp = r.savedSp ∧ s.SameFramesBut t s.fp ∧
          s.SameStack t ∧ s.SameGlobals t ∧ s.SameStreams t ∧ s.SameCore t

/-- R142, R144: GSTORE pops into the global and into nothing else, the index checked first, then the stack. -/
def Obligations.GstorePopsIntoTheGlobal : Prop :=
  ∀ (index : Word), encode (.gstore index) = [13, index] ∧ ∀ s : State,
    (s32 index < 0 ∨ s.gCap ≤ s32 index → exec (.gstore index) s = .next (s.faulted .invalidGlobalIndex)) ∧
    ∀ (g : Nat) (floor : Int), s32 index = g → g < s.gCap → s.floor? = some floor →
      (s.sp - floor < 1 → exec (.gstore index) s = .next (s.faulted .stackUnderflow)) ∧
      ∀ v, 1 ≤ s.sp - floor → s.slot? s.sp = some v →
        ∃ t, exec (.gstore index) s = .next t ∧ t.sp = s.sp - 1 ∧ t.ip = s.ip ∧ t.fp = s.fp ∧
          t.globals.read g = v ∧ s.SameGlobalsBut t g ∧ s.SameFrames t ∧ s.SameStack t ∧ s.SameStreams t ∧
          s.SameCore t

/-- R141 (marked derived in the spec): a STORE and then a LOAD of the same offset in the same frame returns the stored
word. -/
def Obligations.StoreThenLoadReturnsTheWord : Prop :=
  ∀ (s t : State) (offset v : Word), s.runState = .running → s.slot? s.sp = some v →
    exec (.store offset) s = .next t → t.runState = .running →
    ∃ u, exec (.load offset) t = .next u ∧ u.runState = .running ∧ u.sp = s.sp ∧ u.slot? u.sp = some v

/-- R143 (marked derived in the spec), R137: a GSTORE and then a GLOAD of the same index returns the stored word, in
whatever frame the GLOAD runs. -/
def Obligations.GstoreThenGloadReturnsTheWord : Prop :=
  ∀ (s t : State) (index v : Word) (k : Int), s.runState = .running → s.slot? s.sp = some v →
    exec (.gstore index) s = .next t → t.runState = .running →
    ∃ u, exec (.gload index) (t.setFp k) = .next u ∧ u.runState = .running ∧ u.sp = s.sp ∧ u.slot? u.sp = some v

/-! ### Output and stack -/

/-- R150, R151: PRINT pops one word and appends exactly it to OUT; with no element it raises StackUnderflow and emits
nothing; the sink's lines for -1 and 0x80000000 are those of R151. -/
def Obligations.PrintEmitsThePoppedWord : Prop :=
  encode .print = [14] ∧ sinkLine (-1) = "-1" ∧ sinkLine 0x80000000 = "-2147483648" ∧
    ∀ (s : State) (floor : Int), s.floor? = some floor →
      (s.sp - floor < 1 → exec .print s = .next (s.faulted .stackUnderflow) ∧
        (s.faulted .stackUnderflow).out = s.out) ∧
      ∀ v, 1 ≤ s.sp - floor → s.slot? s.sp = some v →
        ∃ t, exec .print s = .next t ∧ t.sp = s.sp - 1 ∧ t.out = s.out ++ [v] ∧ t.ip = s.ip ∧ t.fp = s.fp ∧
          t.trace = s.trace ∧ s.SameStack t ∧ s.SameFrames t ∧ s.SameGlobals t ∧ s.SameCore t

/-- R152, R153: POP lowers `sp` by one and changes nothing else, not even the slot it leaves; it cannot go below the
frame's floor. -/
def Obligations.PopDiscardsTheTop : Prop :=
  encode .pop = [15] ∧ ∀ (s : State) (floor : Int), s.floor? = some floor →
    (s.sp - floor < 1 → exec .pop s = .next (s.faulted .stackUnderflow)) ∧
    (1 ≤ s.sp - floor → ∃ t, exec .pop s = .next t ∧ t.sp = s.sp - 1 ∧ s.SameStack t ∧ s.SameBesidesStack t)

/-! ### Call, return, halt -/

/-- R160 to R164: CALL's checks in the order of R195, then the new frame: the arguments in push order in the first
locals, 0 in the others, return address, caller's frame pointer and stack level saved. -/
def Obligations.CallEntersANewFrame : Prop :=
  ∀ (target nargs : Word), encode (.call target nargs) = [16, target, nargs] ∧ ∀ s : State,
    (s32 nargs < 0 ∨ s.params.frameLocals < s32 nargs →
      exec (.call target nargs) s = .next (s.faulted .invalidLocalOffset)) ∧
    ∀ (n : Nat) (floor : Int), s32 nargs = n → n ≤ s.params.frameLocals → s.floor? = some floor →
      (s.sp - floor < n → exec (.call target nargs) s = .next (s.faulted .stackUnderflow)) ∧
      (n ≤ s.sp - floor → s.fp = s.params.maxFrames - 1 →
        exec (.call target nargs) s = .next (s.faulted .stackOverflow)) ∧
      (n ≤ s.sp - floor → s.fp ≠ s.params.maxFrames - 1 → ¬(0 ≤ s32 target ∧ s32 target ≤ s.codeLen) →
        exec (.call target nargs) s = .next (s.faulted .programBoundsError)) ∧
      (n ≤ s.sp - floor → n ≤ s.sp + 1 → s.sp < s.params.stackCap → -1 ≤ s.fp → s.fp < s.params.maxFrames - 1 →
        0 ≤ s32 target → s32 target ≤ s.codeLen →
        ∃ t r, exec (.call target nargs) s = .next t ∧ (t.ip : Int) = s32 target ∧ t.sp = s.sp - n ∧
          t.fp = s.fp + 1 ∧ t.frame? (s.fp + 1) = some r ∧ r.retIp = s.ip ∧ r.savedFp = s.fp ∧
          r.savedSp = s.sp - n ∧ (∀ i < n, s.slot? (s.sp - n + 1 + i) = some (r.locals.read i)) ∧
          (∀ i, n ≤ i → r.locals.read i = 0) ∧ s.SameFramesBut t (s.fp + 1) ∧
          s.SameStack t ∧ s.SameGlobals t ∧ s.SameStreams t ∧ s.SameCore t)

/-- R166 to R169: RET restores `ip` and `fp` from the active frame's record and leaves the callee's top word, if the
callee's frame holds one, on the caller's stack; at top level it raises UnbalancedReturn. -/
def Obligations.RetRestoresTheCaller : Prop :=
  encode .ret = [17] ∧ ∀ s : State,
    (s.fp = -1 → exec .ret s = .next (s.faulted .unbalancedReturn)) ∧
    ∀ r, s.fp ≠ -1 → s.frame? s.fp = some r →
      (∀ v, r.savedSp < s.sp → s.slot? s.sp = some v → -1 ≤ r.savedSp →
        ∃ t, exec .ret s = .next t ∧ t.sp = r.savedSp + 1 ∧ t.slot? t.sp = some v ∧
          s.SameStackBut t (fun j => j = r.savedSp + 1) ∧ t.ip = r.retIp ∧ t.fp = r.savedFp ∧
          s.SameFramesBut t s.fp ∧ s.SameGlobals t ∧ s.SameStreams t ∧ s.SameCore t) ∧
      (s.sp ≤ r.savedSp →
        ∃ t, exec .ret s = .next t ∧ t.sp = r.savedSp ∧ s.SameStack t ∧ t.ip = r.retIp ∧ t.fp = r.savedFp ∧
          s.SameFramesBut t s.fp ∧ s.SameGlobals t ∧ s.SameStreams t ∧ s.SameCore t)

/-- R180, R181, R182, R78: HALT ends the run from any frame depth and with any stack: nothing but STATUS changes, `ip`
stays past the instruction, and no step follows. That a missing step reads as a named fault of the model is log 7. -/
def Obligations.HaltEndsTheRun : Prop :=
  encode .halt = [18] ∧ ∀ s : State,
    (∃ t, exec .halt s = .next t ∧ t = { s with runState := .halted } ∧ t.result? = some .halted ∧
      step t = .fault .engineHalted) ∧
    (s.runState = .running → s.codeAt? s.ip = some 18 →
      ∃ t, step s = .next t ∧ t.runState = .halted ∧ t.ip = s.ip + 1 ∧ t.cur = s.ip ∧ t.sp = s.sp ∧ t.fp = s.fp ∧
        t.stack = s.stack ∧ t.frames = s.frames ∧ t.globals = s.globals ∧ t.out = s.out)

/-- R170 (marked derived in the spec): a RET that completes returns to the most recent CALL not yet returned from: if,
after a CALL, every state on the way has at least its frame active, and the RET ends that frame, then `fp` is the
caller's again, `ip` is three words past the CALL, and `sp` is the caller's less the arguments, plus one when a value
is returned. -/
def Obligations.ReturnMatchesItsCall : Prop :=
  ∀ (s t u v : State) (target nargs : Word) (rest rest' : List Word) (n : Nat),
    s.runState = .running → s.ip < s.codeLen → decode (s.code.drop s.ip) = .ok (.call target nargs) rest →
    step s = .next t → t.runState = .running →
    State.RunsAbove (s.fp + 1) n t u → u.fp = s.fp + 1 →
    u.runState = .running → u.ip < u.codeLen → decode (u.code.drop u.ip) = .ok .ret rest' → step u = .next v →
    v.fp = s.fp ∧ v.ip = s.ip + 3 ∧
      v.sp = s.sp - s32 nargs + (if s.sp - s32 nargs < u.sp then 1 else 0)

/-! ### Rules of the whole machine -/

/-- R44, R48, R63: no step writes the parameters or the latched run inputs. -/
def Obligations.StepKeepsTheRunInputs : Prop := ∀ s t : State, step s = .next t → s.SameInputs t

/-- R30, R41: STATUS changes only at a terminal event: HALT, the implicit halt, or a fault. -/
def Obligations.StatusChangesOnlyAtTerminalEvents : Prop :=
  ∀ s t : State, step s = .next t →
    s.SameStatus t ∨
    (t.runState = .halted ∧ t.faultKind = s.faultKind ∧ t.faultOffset = s.faultOffset ∧
      (s.ip = s.codeLen ∨ s.codeAt? s.ip = some 18)) ∨
    (t.runState = .faulted ∧ t.faultKind ≠ none ∧ t.ip = s.ip ∧ t.cur = s.ip)

/-- R50, R51, R53: each space is written only by the instructions that may write it: GLOBAL by GSTORE (13), OUT by
PRINT (14), frame records by STORE (12), CALL (16) and RET (17), and CALL and RET alone change `fp`; a step that finds
another word at `ip`, or none, writes none of them, and no step writes CODE. -/
def Obligations.EachSpaceHasItsWriters : Prop :=
  ∀ s t : State, step s = .next t →
    (s.codeAt? s.ip ≠ some 13 → s.SameGlobals t) ∧ (s.codeAt? s.ip ≠ some 14 → t.out = s.out) ∧
    (s.codeAt? s.ip ≠ some 12 → s.codeAt? s.ip ≠ some 16 → s.codeAt? s.ip ≠ some 17 → s.SameFrames t) ∧
    (s.codeAt? s.ip ≠ some 16 → s.codeAt? s.ip ≠ some 17 → t.fp = s.fp) ∧
    (s.codeAt? s.ip = some 12 → s.SameFramesBut t s.fp) ∧
    (s.codeAt? s.ip = some 16 → s.SameFramesBut t (s.fp + 1)) ∧
    (s.codeAt? s.ip = some 17 → s.SameFramesBut t s.fp) ∧ t.code = s.code

/-- R226, R75: an instruction whose operands keep the ranges its producer owes raises no range fault, at top level and
in a frame (a LOAD or STORE only where a frame is active). -/
def Obligations.InRangeOperandsRaiseNoRangeFault : Prop :=
  ∀ (i : Instr) (s t : State),
    i.wellFormed ⟨s.codeLen, s.gCap, s.params.frameLocals⟩ = true →
    (∀ o, i = .load o ∨ i = .store o → 0 ≤ s.fp) → s.faultKind = none → exec i s = .next t →
    t.faultKind ≠ some .invalidGlobalIndex ∧ t.faultKind ≠ some .invalidLocalOffset ∧
      t.faultKind ≠ some .programBoundsError ∧ t.faultKind ≠ some .unknownOpcode

/-- R49 and the values R223 gives: the invariant holds after power-on with any legal parameters, and at reset. The
values R223 leaves open are the model's (log 3), those of the OPEN parameters too (log 2). -/
def Obligations.InvariantHoldsAfterPowerOn : Prop :=
  (∀ p : Params, p.Legal → (State.powerOn p).Inv) ∧ State.reset.Inv

/-- R49 (marked derived in the spec), R220: a start keeps the invariant, from any state that meets it. The invariant's
last clause, on the trace, holds after a start by the model's choice that a start empties the trace stream (log 10).
-/
def Obligations.StartKeepsTheInvariant : Prop :=
  ∀ (s t : State) (code : List Word) (entry gCap : Nat) (trace : Bool), s.Inv →
    s.start code entry gCap trace = .next t → t.Inv

/-- R49 (marked derived in the spec): every step keeps the invariant, from any state that meets it. -/
def Obligations.StepKeepsTheInvariant : Prop := ∀ s t : State, s.Inv → step s = .next t → t.Inv

/-- R49 (marked derived in the spec): the invariants hold at every instruction boundary of every run, whatever the
program, the entry and the parameters; after the first fetch `ip` of a Running engine is in `[0, CODE_LEN]` without
exception. The invariant's last clause, on the trace, holds after a start by the model's choice that a start empties
the trace stream (log 10). -/
def Obligations.InvariantsHoldThroughoutARun : Prop :=
  ∀ (s t u : State) (code : List Word) (entry gCap : Nat) (trace : Bool) (n : Nat), s.Inv →
    s.start code entry gCap trace = .next t → core.run n t = .next u →
    u.Inv ∧ (∃ floor, u.floor? = some floor ∧ -1 ≤ floor ∧ floor ≤ u.sp ∧ u.sp ≤ u.params.stackCap - 1) ∧
      (1 ≤ n → u.runState = .running → u.ip ≤ u.codeLen)

/-- R231 (marked derived in the spec): a Running engine always has a next state; it is never stuck, and the step
leaves it Running, Halted or Faulted. -/
def Obligations.RunningEngineAlwaysSteps : Prop :=
  ∀ s : State, s.Inv → s.runState = .running → ∃ t, step s = .next t ∧ t.runState ≠ .idle

/-- R43, R211: the trace is purely observational: two states that differ in TRACE and the trace stream alone take the
same step, but for these. -/
def Obligations.TraceChangesNothingElse : Prop :=
  ∀ s t : State, s.SameButTrace t → resultsSameButTrace (step s) (step t)

/-- R28, R37 (marked derived in the spec): stack slots above `sp` and frame records above `fp` are unobservable:
states that differ in these alone take steps that differ in these alone. -/
def Obligations.UnoccupiedSlotsAreUnobservable : Prop :=
  ∀ s t s' : State, s.Inv → s.SameVisible t → step s = .next s' → ∃ t', step t = .next t' ∧ s'.SameVisible t'

/-- R211 (marked derived in the spec): the result and OUT of a run are functions of the program, ENTRY, G_CAP and the
parameters of R6 to R8 alone: two starts with these the same, from any two states that meet the invariant and with any
TRACE, show the same result and the same OUT after every number of steps. -/
def Obligations.RunsAreDeterminedByTheirInputs : Prop :=
  ∀ (s s' t t' u : State) (code : List Word) (entry gCap : Nat) (trace trace' : Bool) (n : Nat), s.Inv → s'.Inv →
    s'.params.stackCap = s.params.stackCap → s'.params.frameLocals = s.params.frameLocals →
    s'.params.maxFrames = s.params.maxFrames →
    s.start code entry gCap trace = .next t → s'.start code entry gCap trace' = .next t' → core.run n t = .next u →
    ∃ u', core.run n t' = .next u' ∧ u'.result? = u.result? ∧ u'.out = u.out

/-- R48: the parameters are parameters of the step and not of the engine's state: a step answers a next state exactly
when the step given the parameters and the engine's state does, with the same engine's state and the parameters as
they were; the same of a model fault. -/
def Obligations.StepTakesTheParameters : Prop :=
  ∀ s : State,
    (∀ t : State, step s = .next t ↔
      stepWith s.params s.toEngineState = .next t.toEngineState ∧ t.params = s.params) ∧
    (∀ f, step s = .fault f ↔ stepWith s.params s.toEngineState = .fault f)
end

