-- ==== Sys2Proof/Laws/Memory.lean ====
section
/-!
SUPPORT. The laws of the sparse stores: a read after a write, and the canonical form every operation keeps.
-/

namespace Sys2Proof.Machine

variable {α : Type}

@[simp] theorem cellGet_cellPut_same (cs : List (Nat × α)) (a : Nat) (v : α) :
    cellGet (cellPut cs a v) a = some v := by
  induction cs with
  | nil => simp [cellPut, cellGet]
  | cons c cs ih =>
    obtain ⟨k, w⟩ := c
    unfold cellPut
    split_ifs with h1 h2
    · simp [cellGet]
    · simp [cellGet]
    · have : k ≠ a := fun h => h2 h.symm
      simpa [cellGet, this] using ih

theorem cellGet_cellPut_other (cs : List (Nat × α)) {a b : Nat} (v : α) (h : b ≠ a) :
    cellGet (cellPut cs a v) b = cellGet cs b := by
  induction cs with
  | nil => simp [cellPut, cellGet, h.symm]
  | cons c cs ih =>
    obtain ⟨k, w⟩ := c
    unfold cellPut
    split_ifs with h1 h2
    · simp [cellGet, h.symm]
    · subst h2; simp [cellGet, h.symm]
    · simp [cellGet, ih]

@[simp] theorem cellGet_cellErase_same (cs : List (Nat × α)) (a : Nat) : cellGet (cellErase cs a) a = none := by
  induction cs with
  | nil => rfl
  | cons c cs ih =>
    obtain ⟨k, w⟩ := c
    unfold cellErase
    split_ifs with h
    · exact ih
    · simpa [cellGet, Ne.symm h] using ih

theorem cellGet_cellErase_other (cs : List (Nat × α)) {a b : Nat} (h : b ≠ a) :
    cellGet (cellErase cs a) b = cellGet cs b := by
  induction cs with
  | nil => rfl
  | cons c cs ih =>
    obtain ⟨k, w⟩ := c
    unfold cellErase
    split_ifs with h'
    · subst h'; simpa [cellGet, h.symm] using ih
    · simp [cellGet, ih]

theorem mem_of_cellGet {cs : List (Nat × α)} {a : Nat} {v : α} (h : cellGet cs a = some v) : (a, v) ∈ cs := by
  induction cs with
  | nil => simp [cellGet] at h
  | cons c cs ih =>
    obtain ⟨k, w⟩ := c
    unfold cellGet at h
    split_ifs at h with hk
    · simp_all
    · exact List.mem_cons_of_mem _ (ih h)

/-- What a store lists after a write. -/
theorem mem_cellPut {cs : List (Nat × α)} {a : Nat} {v : α} {c : Nat × α} (h : c ∈ cellPut cs a v) :
    c = (a, v) ∨ c ∈ cs := by
  induction cs with
  | nil => simpa [cellPut] using h
  | cons d cs ih =>
    obtain ⟨k, w⟩ := d
    unfold cellPut at h
    split_ifs at h with h1 h2
    · simpa using h
    · rcases List.mem_cons.1 h with h | h
      · exact .inl h
      · exact .inr (List.mem_cons_of_mem _ h)
    · rcases List.mem_cons.1 h with h | h
      · exact .inr (h ▸ List.mem_cons_self)
      · exact (ih h).imp_right (List.mem_cons_of_mem _)

/-- What a store lists after an erasure. -/
theorem mem_cellErase {cs : List (Nat × α)} {a : Nat} {c : Nat × α} (h : c ∈ cellErase cs a) : c ∈ cs := by
  induction cs with
  | nil => exact h
  | cons d cs ih =>
    obtain ⟨k, w⟩ := d
    unfold cellErase at h
    split_ifs at h with h1
    · exact List.mem_cons_of_mem _ (ih h)
    · rcases List.mem_cons.1 h with h | h
      · exact h ▸ List.mem_cons_self
      · exact List.mem_cons_of_mem _ (ih h)

theorem cellsSorted_cellPut {cs : List (Nat × α)} (h : CellsSorted cs) (a : Nat) (v : α) :
    CellsSorted (cellPut cs a v) := by
  induction cs with
  | nil => simp [cellPut, CellsSorted]
  | cons c cs ih =>
    obtain ⟨k, w⟩ := c
    simp only [CellsSorted, List.map_cons, List.pairwise_cons] at h
    unfold cellPut
    split_ifs with h1 h2
    · simp only [CellsSorted, List.map_cons, List.pairwise_cons, List.mem_cons]
      refine ⟨?_, h⟩
      rintro b (rfl | hb)
      · exact h1
      · exact h1.trans (h.1 b hb)
    · subst h2
      simpa only [CellsSorted, List.map_cons, List.pairwise_cons] using h
    · simp only [CellsSorted, List.map_cons, List.pairwise_cons]
      refine ⟨fun b hb => ?_, ih h.2⟩
      obtain ⟨c, hc, rfl⟩ := List.mem_map.1 hb
      rcases mem_cellPut hc with rfl | hc
      · simp only; omega
      · exact h.1 _ (List.mem_map_of_mem hc)

theorem cellsSorted_cellErase {cs : List (Nat × α)} (h : CellsSorted cs) (a : Nat) : CellsSorted (cellErase cs a) := by
  induction cs with
  | nil => exact h
  | cons c cs ih =>
    obtain ⟨k, w⟩ := c
    simp only [CellsSorted, List.map_cons, List.pairwise_cons] at h
    unfold cellErase
    split_ifs with h1
    · exact ih h.2
    · simp only [CellsSorted, List.map_cons, List.pairwise_cons]
      refine ⟨fun b hb => ?_, ih h.2⟩
      obtain ⟨c, hc, rfl⟩ := List.mem_map.1 hb
      exact h.1 _ (List.mem_map_of_mem (mem_cellErase hc))

/-! ### Word spaces -/

@[simp] theorem Memory.read_nil (a : Nat) : Memory.read [] a = 0 := rfl

/-- A read after a write to the same index gives the word written. -/
@[simp] theorem Memory.read_write_same (m : Memory) (a : Nat) (v : Word) : (m.write a v).read a = v := by
  unfold Memory.write Memory.read
  split_ifs with h <;> simp [h]

/-- A write leaves every other index alone. -/
theorem Memory.read_write_other (m : Memory) {a b : Nat} (v : Word) (h : b ≠ a) :
    (m.write a v).read b = m.read b := by
  unfold Memory.write Memory.read
  split_ifs
  · rw [cellGet_cellErase_other _ h]
  · rw [cellGet_cellPut_other _ _ h]

theorem Memory.read_write (m : Memory) (a b : Nat) (v : Word) :
    (m.write a v).read b = if b = a then v else m.read b := by
  split_ifs with h
  · subst h; simp
  · exact m.read_write_other v h

/-- Every write keeps the canonical form. -/
theorem Memory.wf_write {m : Memory} (h : m.wf) (a : Nat) (v : Word) : (m.write a v).wf := by
  unfold Memory.write
  split_ifs with hv
  · exact ⟨cellsSorted_cellErase h.1 a, fun c hc => h.2 c (mem_cellErase hc)⟩
  · refine ⟨cellsSorted_cellPut h.1 a v, fun c hc => ?_⟩
    rcases mem_cellPut hc with rfl | hc
    · exact hv
    · exact h.2 c hc

/-- What a space lists after a write. -/
theorem Memory.mem_write {m : Memory} {a : Nat} {v : Word} {c : Nat × Word} (h : c ∈ m.write a v) :
    c.1 = a ∨ c ∈ m := by
  unfold Memory.write at h
  split_ifs at h
  · exact .inr (mem_cellErase h)
  · exact (mem_cellPut h).imp_left (fun h => by rw [h])

theorem Memory.wf_nil : Memory.wf [] := ⟨List.Pairwise.nil, by simp⟩

theorem Memory.wf_writeList {m : Memory} (h : m.wf) (a : Nat) (vs : List Word) : (m.writeList a vs).wf := by
  induction vs generalizing m a with
  | nil => exact h
  | cons v vs ih => exact ih (Memory.wf_write h a v) (a + 1)

theorem Memory.mem_writeList {m : Memory} {a : Nat} {vs : List Word} {c : Nat × Word}
    (h : c ∈ m.writeList a vs) : (a ≤ c.1 ∧ c.1 < a + vs.length) ∨ c ∈ m := by
  induction vs generalizing m a with
  | nil => exact .inr h
  | cons v vs ih =>
    rcases ih h with h | h
    · left; simp only [List.length_cons]; omega
    · rcases Memory.mem_write h with h | h
      · left; simp only [List.length_cons]; omega
      · exact .inr h

/-- Reading back a list of words written one after the other. -/
theorem Memory.read_writeList (m : Memory) (a b : Nat) (vs : List Word) :
    (m.writeList a vs).read b = if a ≤ b then (vs[b - a]?).getD (m.read b) else m.read b := by
  induction vs generalizing m a with
  | nil => simp [Memory.writeList]
  | cons v vs ih =>
    rw [Memory.writeList, ih, Memory.read_write]
    by_cases h : b = a
    · subst h; simp
    · by_cases h' : a ≤ b
      · have e : b - a = (b - (a + 1)) + 1 := by omega
        have : a + 1 ≤ b := by omega
        rw [e, List.getElem?_cons_succ]; simp [this, h, h']
      · have : ¬ a + 1 ≤ b := by omega
        simp [this, h, h']

end Sys2Proof.Machine
end

