-- ==== Sys2Proof/Laws/State.lean ====
section
/-!
SUPPORT. What each update of State does to each field: one lemma per field and update, so that no proof unfolds a
record update.
-/

namespace Sys2Proof.Machine

variable (s : State)

/-! ### withParams -/

@[simp] theorem EngineState.withParams_params (e : EngineState) (p : Params) : (e.withParams p).params = p := rfl
@[simp] theorem EngineState.withParams_toEngineState (e : EngineState) (p : Params) :
    (e.withParams p).toEngineState = e := rfl
@[simp] theorem State.toEngineState_withParams : s.toEngineState.withParams s.params = s := rfl

/-! ### setIp -/

@[simp] theorem State.setIp_params (a : Nat) : (s.setIp a).params = s.params := rfl
@[simp] theorem State.setIp_code (a : Nat) : (s.setIp a).code = s.code := rfl
@[simp] theorem State.setIp_entry (a : Nat) : (s.setIp a).entry = s.entry := rfl
@[simp] theorem State.setIp_gCap (a : Nat) : (s.setIp a).gCap = s.gCap := rfl
@[simp] theorem State.setIp_traceOn (a : Nat) : (s.setIp a).traceOn = s.traceOn := rfl
@[simp] theorem State.setIp_ip (a : Nat) : (s.setIp a).ip = a := rfl
@[simp] theorem State.setIp_cur (a : Nat) : (s.setIp a).cur = s.cur := rfl
@[simp] theorem State.setIp_sp (a : Nat) : (s.setIp a).sp = s.sp := rfl
@[simp] theorem State.setIp_stack (a : Nat) : (s.setIp a).stack = s.stack := rfl
@[simp] theorem State.setIp_fp (a : Nat) : (s.setIp a).fp = s.fp := rfl
@[simp] theorem State.setIp_frames (a : Nat) : (s.setIp a).frames = s.frames := rfl
@[simp] theorem State.setIp_globals (a : Nat) : (s.setIp a).globals = s.globals := rfl
@[simp] theorem State.setIp_out (a : Nat) : (s.setIp a).out = s.out := rfl
@[simp] theorem State.setIp_trace (a : Nat) : (s.setIp a).trace = s.trace := rfl
@[simp] theorem State.setIp_runState (a : Nat) : (s.setIp a).runState = s.runState := rfl
@[simp] theorem State.setIp_faultKind (a : Nat) : (s.setIp a).faultKind = s.faultKind := rfl
@[simp] theorem State.setIp_faultOffset (a : Nat) : (s.setIp a).faultOffset = s.faultOffset := rfl

/-! ### setCur -/

@[simp] theorem State.setCur_params (a : Nat) : (s.setCur a).params = s.params := rfl
@[simp] theorem State.setCur_code (a : Nat) : (s.setCur a).code = s.code := rfl
@[simp] theorem State.setCur_entry (a : Nat) : (s.setCur a).entry = s.entry := rfl
@[simp] theorem State.setCur_gCap (a : Nat) : (s.setCur a).gCap = s.gCap := rfl
@[simp] theorem State.setCur_traceOn (a : Nat) : (s.setCur a).traceOn = s.traceOn := rfl
@[simp] theorem State.setCur_ip (a : Nat) : (s.setCur a).ip = s.ip := rfl
@[simp] theorem State.setCur_cur (a : Nat) : (s.setCur a).cur = a := rfl
@[simp] theorem State.setCur_sp (a : Nat) : (s.setCur a).sp = s.sp := rfl
@[simp] theorem State.setCur_stack (a : Nat) : (s.setCur a).stack = s.stack := rfl
@[simp] theorem State.setCur_fp (a : Nat) : (s.setCur a).fp = s.fp := rfl
@[simp] theorem State.setCur_frames (a : Nat) : (s.setCur a).frames = s.frames := rfl
@[simp] theorem State.setCur_globals (a : Nat) : (s.setCur a).globals = s.globals := rfl
@[simp] theorem State.setCur_out (a : Nat) : (s.setCur a).out = s.out := rfl
@[simp] theorem State.setCur_trace (a : Nat) : (s.setCur a).trace = s.trace := rfl
@[simp] theorem State.setCur_runState (a : Nat) : (s.setCur a).runState = s.runState := rfl
@[simp] theorem State.setCur_faultKind (a : Nat) : (s.setCur a).faultKind = s.faultKind := rfl
@[simp] theorem State.setCur_faultOffset (a : Nat) : (s.setCur a).faultOffset = s.faultOffset := rfl

/-! ### setSp -/

@[simp] theorem State.setSp_params (i : Int) : (s.setSp i).params = s.params := rfl
@[simp] theorem State.setSp_code (i : Int) : (s.setSp i).code = s.code := rfl
@[simp] theorem State.setSp_entry (i : Int) : (s.setSp i).entry = s.entry := rfl
@[simp] theorem State.setSp_gCap (i : Int) : (s.setSp i).gCap = s.gCap := rfl
@[simp] theorem State.setSp_traceOn (i : Int) : (s.setSp i).traceOn = s.traceOn := rfl
@[simp] theorem State.setSp_ip (i : Int) : (s.setSp i).ip = s.ip := rfl
@[simp] theorem State.setSp_cur (i : Int) : (s.setSp i).cur = s.cur := rfl
@[simp] theorem State.setSp_sp (i : Int) : (s.setSp i).sp = i := rfl
@[simp] theorem State.setSp_stack (i : Int) : (s.setSp i).stack = s.stack := rfl
@[simp] theorem State.setSp_fp (i : Int) : (s.setSp i).fp = s.fp := rfl
@[simp] theorem State.setSp_frames (i : Int) : (s.setSp i).frames = s.frames := rfl
@[simp] theorem State.setSp_globals (i : Int) : (s.setSp i).globals = s.globals := rfl
@[simp] theorem State.setSp_out (i : Int) : (s.setSp i).out = s.out := rfl
@[simp] theorem State.setSp_trace (i : Int) : (s.setSp i).trace = s.trace := rfl
@[simp] theorem State.setSp_runState (i : Int) : (s.setSp i).runState = s.runState := rfl
@[simp] theorem State.setSp_faultKind (i : Int) : (s.setSp i).faultKind = s.faultKind := rfl
@[simp] theorem State.setSp_faultOffset (i : Int) : (s.setSp i).faultOffset = s.faultOffset := rfl

/-! ### setFp -/

@[simp] theorem State.setFp_params (k : Int) : (s.setFp k).params = s.params := rfl
@[simp] theorem State.setFp_code (k : Int) : (s.setFp k).code = s.code := rfl
@[simp] theorem State.setFp_entry (k : Int) : (s.setFp k).entry = s.entry := rfl
@[simp] theorem State.setFp_gCap (k : Int) : (s.setFp k).gCap = s.gCap := rfl
@[simp] theorem State.setFp_traceOn (k : Int) : (s.setFp k).traceOn = s.traceOn := rfl
@[simp] theorem State.setFp_ip (k : Int) : (s.setFp k).ip = s.ip := rfl
@[simp] theorem State.setFp_cur (k : Int) : (s.setFp k).cur = s.cur := rfl
@[simp] theorem State.setFp_sp (k : Int) : (s.setFp k).sp = s.sp := rfl
@[simp] theorem State.setFp_stack (k : Int) : (s.setFp k).stack = s.stack := rfl
@[simp] theorem State.setFp_fp (k : Int) : (s.setFp k).fp = k := rfl
@[simp] theorem State.setFp_frames (k : Int) : (s.setFp k).frames = s.frames := rfl
@[simp] theorem State.setFp_globals (k : Int) : (s.setFp k).globals = s.globals := rfl
@[simp] theorem State.setFp_out (k : Int) : (s.setFp k).out = s.out := rfl
@[simp] theorem State.setFp_trace (k : Int) : (s.setFp k).trace = s.trace := rfl
@[simp] theorem State.setFp_runState (k : Int) : (s.setFp k).runState = s.runState := rfl
@[simp] theorem State.setFp_faultKind (k : Int) : (s.setFp k).faultKind = s.faultKind := rfl
@[simp] theorem State.setFp_faultOffset (k : Int) : (s.setFp k).faultOffset = s.faultOffset := rfl

/-! ### putSlot -/

@[simp] theorem State.putSlot_params (i : Int) (v : Word) : (s.putSlot i v).params = s.params := rfl
@[simp] theorem State.putSlot_code (i : Int) (v : Word) : (s.putSlot i v).code = s.code := rfl
@[simp] theorem State.putSlot_entry (i : Int) (v : Word) : (s.putSlot i v).entry = s.entry := rfl
@[simp] theorem State.putSlot_gCap (i : Int) (v : Word) : (s.putSlot i v).gCap = s.gCap := rfl
@[simp] theorem State.putSlot_traceOn (i : Int) (v : Word) : (s.putSlot i v).traceOn = s.traceOn := rfl
@[simp] theorem State.putSlot_ip (i : Int) (v : Word) : (s.putSlot i v).ip = s.ip := rfl
@[simp] theorem State.putSlot_cur (i : Int) (v : Word) : (s.putSlot i v).cur = s.cur := rfl
@[simp] theorem State.putSlot_sp (i : Int) (v : Word) : (s.putSlot i v).sp = s.sp := rfl
@[simp] theorem State.putSlot_stack (i : Int) (v : Word) : (s.putSlot i v).stack = s.stack.write i.toNat v := rfl
@[simp] theorem State.putSlot_fp (i : Int) (v : Word) : (s.putSlot i v).fp = s.fp := rfl
@[simp] theorem State.putSlot_frames (i : Int) (v : Word) : (s.putSlot i v).frames = s.frames := rfl
@[simp] theorem State.putSlot_globals (i : Int) (v : Word) : (s.putSlot i v).globals = s.globals := rfl
@[simp] theorem State.putSlot_out (i : Int) (v : Word) : (s.putSlot i v).out = s.out := rfl
@[simp] theorem State.putSlot_trace (i : Int) (v : Word) : (s.putSlot i v).trace = s.trace := rfl
@[simp] theorem State.putSlot_runState (i : Int) (v : Word) : (s.putSlot i v).runState = s.runState := rfl
@[simp] theorem State.putSlot_faultKind (i : Int) (v : Word) : (s.putSlot i v).faultKind = s.faultKind := rfl
@[simp] theorem State.putSlot_faultOffset (i : Int) (v : Word) : (s.putSlot i v).faultOffset = s.faultOffset := rfl

/-! ### putGlobal -/

@[simp] theorem State.putGlobal_params (i : Nat) (v : Word) : (s.putGlobal i v).params = s.params := rfl
@[simp] theorem State.putGlobal_code (i : Nat) (v : Word) : (s.putGlobal i v).code = s.code := rfl
@[simp] theorem State.putGlobal_entry (i : Nat) (v : Word) : (s.putGlobal i v).entry = s.entry := rfl
@[simp] theorem State.putGlobal_gCap (i : Nat) (v : Word) : (s.putGlobal i v).gCap = s.gCap := rfl
@[simp] theorem State.putGlobal_traceOn (i : Nat) (v : Word) : (s.putGlobal i v).traceOn = s.traceOn := rfl
@[simp] theorem State.putGlobal_ip (i : Nat) (v : Word) : (s.putGlobal i v).ip = s.ip := rfl
@[simp] theorem State.putGlobal_cur (i : Nat) (v : Word) : (s.putGlobal i v).cur = s.cur := rfl
@[simp] theorem State.putGlobal_sp (i : Nat) (v : Word) : (s.putGlobal i v).sp = s.sp := rfl
@[simp] theorem State.putGlobal_stack (i : Nat) (v : Word) : (s.putGlobal i v).stack = s.stack := rfl
@[simp] theorem State.putGlobal_fp (i : Nat) (v : Word) : (s.putGlobal i v).fp = s.fp := rfl
@[simp] theorem State.putGlobal_frames (i : Nat) (v : Word) : (s.putGlobal i v).frames = s.frames := rfl
@[simp] theorem State.putGlobal_globals (i : Nat) (v : Word) : (s.putGlobal i v).globals = s.globals.write i v := rfl
@[simp] theorem State.putGlobal_out (i : Nat) (v : Word) : (s.putGlobal i v).out = s.out := rfl
@[simp] theorem State.putGlobal_trace (i : Nat) (v : Word) : (s.putGlobal i v).trace = s.trace := rfl
@[simp] theorem State.putGlobal_runState (i : Nat) (v : Word) : (s.putGlobal i v).runState = s.runState := rfl
@[simp] theorem State.putGlobal_faultKind (i : Nat) (v : Word) : (s.putGlobal i v).faultKind = s.faultKind := rfl
@[simp] theorem State.putGlobal_faultOffset (i : Nat) (v : Word) : (s.putGlobal i v).faultOffset = s.faultOffset := rfl

/-! ### putFrame -/

@[simp] theorem State.putFrame_params (k : Int) (r : FrameRecord) : (s.putFrame k r).params = s.params := rfl
@[simp] theorem State.putFrame_code (k : Int) (r : FrameRecord) : (s.putFrame k r).code = s.code := rfl
@[simp] theorem State.putFrame_entry (k : Int) (r : FrameRecord) : (s.putFrame k r).entry = s.entry := rfl
@[simp] theorem State.putFrame_gCap (k : Int) (r : FrameRecord) : (s.putFrame k r).gCap = s.gCap := rfl
@[simp] theorem State.putFrame_traceOn (k : Int) (r : FrameRecord) : (s.putFrame k r).traceOn = s.traceOn := rfl
@[simp] theorem State.putFrame_ip (k : Int) (r : FrameRecord) : (s.putFrame k r).ip = s.ip := rfl
@[simp] theorem State.putFrame_cur (k : Int) (r : FrameRecord) : (s.putFrame k r).cur = s.cur := rfl
@[simp] theorem State.putFrame_sp (k : Int) (r : FrameRecord) : (s.putFrame k r).sp = s.sp := rfl
@[simp] theorem State.putFrame_stack (k : Int) (r : FrameRecord) : (s.putFrame k r).stack = s.stack := rfl
@[simp] theorem State.putFrame_fp (k : Int) (r : FrameRecord) : (s.putFrame k r).fp = s.fp := rfl
@[simp] theorem State.putFrame_frames (k : Int) (r : FrameRecord) : (s.putFrame k r).frames = cellPut s.frames k.toNat r := rfl
@[simp] theorem State.putFrame_globals (k : Int) (r : FrameRecord) : (s.putFrame k r).globals = s.globals := rfl
@[simp] theorem State.putFrame_out (k : Int) (r : FrameRecord) : (s.putFrame k r).out = s.out := rfl
@[simp] theorem State.putFrame_trace (k : Int) (r : FrameRecord) : (s.putFrame k r).trace = s.trace := rfl
@[simp] theorem State.putFrame_runState (k : Int) (r : FrameRecord) : (s.putFrame k r).runState = s.runState := rfl
@[simp] theorem State.putFrame_faultKind (k : Int) (r : FrameRecord) : (s.putFrame k r).faultKind = s.faultKind := rfl
@[simp] theorem State.putFrame_faultOffset (k : Int) (r : FrameRecord) : (s.putFrame k r).faultOffset = s.faultOffset := rfl

/-! ### dropFrame -/

@[simp] theorem State.dropFrame_params (k : Int) : (s.dropFrame k).params = s.params := rfl
@[simp] theorem State.dropFrame_code (k : Int) : (s.dropFrame k).code = s.code := rfl
@[simp] theorem State.dropFrame_entry (k : Int) : (s.dropFrame k).entry = s.entry := rfl
@[simp] theorem State.dropFrame_gCap (k : Int) : (s.dropFrame k).gCap = s.gCap := rfl
@[simp] theorem State.dropFrame_traceOn (k : Int) : (s.dropFrame k).traceOn = s.traceOn := rfl
@[simp] theorem State.dropFrame_ip (k : Int) : (s.dropFrame k).ip = s.ip := rfl
@[simp] theorem State.dropFrame_cur (k : Int) : (s.dropFrame k).cur = s.cur := rfl
@[simp] theorem State.dropFrame_sp (k : Int) : (s.dropFrame k).sp = s.sp := rfl
@[simp] theorem State.dropFrame_stack (k : Int) : (s.dropFrame k).stack = s.stack := rfl
@[simp] theorem State.dropFrame_fp (k : Int) : (s.dropFrame k).fp = s.fp := rfl
@[simp] theorem State.dropFrame_frames (k : Int) : (s.dropFrame k).frames = cellErase s.frames k.toNat := rfl
@[simp] theorem State.dropFrame_globals (k : Int) : (s.dropFrame k).globals = s.globals := rfl
@[simp] theorem State.dropFrame_out (k : Int) : (s.dropFrame k).out = s.out := rfl
@[simp] theorem State.dropFrame_trace (k : Int) : (s.dropFrame k).trace = s.trace := rfl
@[simp] theorem State.dropFrame_runState (k : Int) : (s.dropFrame k).runState = s.runState := rfl
@[simp] theorem State.dropFrame_faultKind (k : Int) : (s.dropFrame k).faultKind = s.faultKind := rfl
@[simp] theorem State.dropFrame_faultOffset (k : Int) : (s.dropFrame k).faultOffset = s.faultOffset := rfl

/-! ### emit -/

@[simp] theorem State.emit_params (v : Word) : (s.emit v).params = s.params := rfl
@[simp] theorem State.emit_code (v : Word) : (s.emit v).code = s.code := rfl
@[simp] theorem State.emit_entry (v : Word) : (s.emit v).entry = s.entry := rfl
@[simp] theorem State.emit_gCap (v : Word) : (s.emit v).gCap = s.gCap := rfl
@[simp] theorem State.emit_traceOn (v : Word) : (s.emit v).traceOn = s.traceOn := rfl
@[simp] theorem State.emit_ip (v : Word) : (s.emit v).ip = s.ip := rfl
@[simp] theorem State.emit_cur (v : Word) : (s.emit v).cur = s.cur := rfl
@[simp] theorem State.emit_sp (v : Word) : (s.emit v).sp = s.sp := rfl
@[simp] theorem State.emit_stack (v : Word) : (s.emit v).stack = s.stack := rfl
@[simp] theorem State.emit_fp (v : Word) : (s.emit v).fp = s.fp := rfl
@[simp] theorem State.emit_frames (v : Word) : (s.emit v).frames = s.frames := rfl
@[simp] theorem State.emit_globals (v : Word) : (s.emit v).globals = s.globals := rfl
@[simp] theorem State.emit_out (v : Word) : (s.emit v).out = s.out ++ [v] := rfl
@[simp] theorem State.emit_trace (v : Word) : (s.emit v).trace = s.trace := rfl
@[simp] theorem State.emit_runState (v : Word) : (s.emit v).runState = s.runState := rfl
@[simp] theorem State.emit_faultKind (v : Word) : (s.emit v).faultKind = s.faultKind := rfl
@[simp] theorem State.emit_faultOffset (v : Word) : (s.emit v).faultOffset = s.faultOffset := rfl

/-! ### emitTrace -/

@[simp] theorem State.emitTrace_params (r : TraceRecord) : (s.emitTrace r).params = s.params := rfl
@[simp] theorem State.emitTrace_code (r : TraceRecord) : (s.emitTrace r).code = s.code := rfl
@[simp] theorem State.emitTrace_entry (r : TraceRecord) : (s.emitTrace r).entry = s.entry := rfl
@[simp] theorem State.emitTrace_gCap (r : TraceRecord) : (s.emitTrace r).gCap = s.gCap := rfl
@[simp] theorem State.emitTrace_traceOn (r : TraceRecord) : (s.emitTrace r).traceOn = s.traceOn := rfl
@[simp] theorem State.emitTrace_ip (r : TraceRecord) : (s.emitTrace r).ip = s.ip := rfl
@[simp] theorem State.emitTrace_cur (r : TraceRecord) : (s.emitTrace r).cur = s.cur := rfl
@[simp] theorem State.emitTrace_sp (r : TraceRecord) : (s.emitTrace r).sp = s.sp := rfl
@[simp] theorem State.emitTrace_stack (r : TraceRecord) : (s.emitTrace r).stack = s.stack := rfl
@[simp] theorem State.emitTrace_fp (r : TraceRecord) : (s.emitTrace r).fp = s.fp := rfl
@[simp] theorem State.emitTrace_frames (r : TraceRecord) : (s.emitTrace r).frames = s.frames := rfl
@[simp] theorem State.emitTrace_globals (r : TraceRecord) : (s.emitTrace r).globals = s.globals := rfl
@[simp] theorem State.emitTrace_out (r : TraceRecord) : (s.emitTrace r).out = s.out := rfl
@[simp] theorem State.emitTrace_trace (r : TraceRecord) : (s.emitTrace r).trace = s.trace ++ [r] := rfl
@[simp] theorem State.emitTrace_runState (r : TraceRecord) : (s.emitTrace r).runState = s.runState := rfl
@[simp] theorem State.emitTrace_faultKind (r : TraceRecord) : (s.emitTrace r).faultKind = s.faultKind := rfl
@[simp] theorem State.emitTrace_faultOffset (r : TraceRecord) : (s.emitTrace r).faultOffset = s.faultOffset := rfl

/-! ### setStatus -/

@[simp] theorem State.setStatus_params (rs : RunState) (k : Option FaultKind) (offset : Word) : (s.setStatus rs k offset).params = s.params := rfl
@[simp] theorem State.setStatus_code (rs : RunState) (k : Option FaultKind) (offset : Word) : (s.setStatus rs k offset).code = s.code := rfl
@[simp] theorem State.setStatus_entry (rs : RunState) (k : Option FaultKind) (offset : Word) : (s.setStatus rs k offset).entry = s.entry := rfl
@[simp] theorem State.setStatus_gCap (rs : RunState) (k : Option FaultKind) (offset : Word) : (s.setStatus rs k offset).gCap = s.gCap := rfl
@[simp] theorem State.setStatus_traceOn (rs : RunState) (k : Option FaultKind) (offset : Word) : (s.setStatus rs k offset).traceOn = s.traceOn := rfl
@[simp] theorem State.setStatus_ip (rs : RunState) (k : Option FaultKind) (offset : Word) : (s.setStatus rs k offset).ip = s.ip := rfl
@[simp] theorem State.setStatus_cur (rs : RunState) (k : Option FaultKind) (offset : Word) : (s.setStatus rs k offset).cur = s.cur := rfl
@[simp] theorem State.setStatus_sp (rs : RunState) (k : Option FaultKind) (offset : Word) : (s.setStatus rs k offset).sp = s.sp := rfl
@[simp] theorem State.setStatus_stack (rs : RunState) (k : Option FaultKind) (offset : Word) : (s.setStatus rs k offset).stack = s.stack := rfl
@[simp] theorem State.setStatus_fp (rs : RunState) (k : Option FaultKind) (offset : Word) : (s.setStatus rs k offset).fp = s.fp := rfl
@[simp] theorem State.setStatus_frames (rs : RunState) (k : Option FaultKind) (offset : Word) : (s.setStatus rs k offset).frames = s.frames := rfl
@[simp] theorem State.setStatus_globals (rs : RunState) (k : Option FaultKind) (offset : Word) : (s.setStatus rs k offset).globals = s.globals := rfl
@[simp] theorem State.setStatus_out (rs : RunState) (k : Option FaultKind) (offset : Word) : (s.setStatus rs k offset).out = s.out := rfl
@[simp] theorem State.setStatus_trace (rs : RunState) (k : Option FaultKind) (offset : Word) : (s.setStatus rs k offset).trace = s.trace := rfl
@[simp] theorem State.setStatus_runState (rs : RunState) (k : Option FaultKind) (offset : Word) : (s.setStatus rs k offset).runState = rs := rfl
@[simp] theorem State.setStatus_faultKind (rs : RunState) (k : Option FaultKind) (offset : Word) : (s.setStatus rs k offset).faultKind = k := rfl
@[simp] theorem State.setStatus_faultOffset (rs : RunState) (k : Option FaultKind) (offset : Word) : (s.setStatus rs k offset).faultOffset = offset := rfl

/-! ### faulted -/

@[simp] theorem State.faulted_params (k : FaultKind) : (s.faulted k).params = s.params := rfl
@[simp] theorem State.faulted_code (k : FaultKind) : (s.faulted k).code = s.code := rfl
@[simp] theorem State.faulted_entry (k : FaultKind) : (s.faulted k).entry = s.entry := rfl
@[simp] theorem State.faulted_gCap (k : FaultKind) : (s.faulted k).gCap = s.gCap := rfl
@[simp] theorem State.faulted_traceOn (k : FaultKind) : (s.faulted k).traceOn = s.traceOn := rfl
@[simp] theorem State.faulted_ip (k : FaultKind) : (s.faulted k).ip = s.cur := rfl
@[simp] theorem State.faulted_cur (k : FaultKind) : (s.faulted k).cur = s.cur := rfl
@[simp] theorem State.faulted_sp (k : FaultKind) : (s.faulted k).sp = s.sp := rfl
@[simp] theorem State.faulted_stack (k : FaultKind) : (s.faulted k).stack = s.stack := rfl
@[simp] theorem State.faulted_fp (k : FaultKind) : (s.faulted k).fp = s.fp := rfl
@[simp] theorem State.faulted_frames (k : FaultKind) : (s.faulted k).frames = s.frames := rfl
@[simp] theorem State.faulted_globals (k : FaultKind) : (s.faulted k).globals = s.globals := rfl
@[simp] theorem State.faulted_out (k : FaultKind) : (s.faulted k).out = s.out := rfl
@[simp] theorem State.faulted_trace (k : FaultKind) : (s.faulted k).trace = s.trace := rfl
@[simp] theorem State.faulted_runState (k : FaultKind) : (s.faulted k).runState = .faulted := rfl
@[simp] theorem State.faulted_faultKind (k : FaultKind) : (s.faulted k).faultKind = some k := rfl
@[simp] theorem State.faulted_faultOffset (k : FaultKind) : (s.faulted k).faultOffset = faultOffsetOf s.cur := rfl

/-! ### halt -/

@[simp] theorem State.halt_params : (s.halt).params = s.params := rfl
@[simp] theorem State.halt_code : (s.halt).code = s.code := rfl
@[simp] theorem State.halt_entry : (s.halt).entry = s.entry := rfl
@[simp] theorem State.halt_gCap : (s.halt).gCap = s.gCap := rfl
@[simp] theorem State.halt_traceOn : (s.halt).traceOn = s.traceOn := rfl
@[simp] theorem State.halt_ip : (s.halt).ip = s.ip := rfl
@[simp] theorem State.halt_cur : (s.halt).cur = s.cur := rfl
@[simp] theorem State.halt_sp : (s.halt).sp = s.sp := rfl
@[simp] theorem State.halt_stack : (s.halt).stack = s.stack := rfl
@[simp] theorem State.halt_fp : (s.halt).fp = s.fp := rfl
@[simp] theorem State.halt_frames : (s.halt).frames = s.frames := rfl
@[simp] theorem State.halt_globals : (s.halt).globals = s.globals := rfl
@[simp] theorem State.halt_out : (s.halt).out = s.out := rfl
@[simp] theorem State.halt_trace : (s.halt).trace = s.trace := rfl
@[simp] theorem State.halt_runState : (s.halt).runState = .halted := rfl
@[simp] theorem State.halt_faultKind : (s.halt).faultKind = s.faultKind := rfl
@[simp] theorem State.halt_faultOffset : (s.halt).faultOffset = s.faultOffset := rfl

/-! ### enterRunning -/

@[simp] theorem State.enterRunning_params : (s.enterRunning).params = s.params := rfl
@[simp] theorem State.enterRunning_code : (s.enterRunning).code = s.code := rfl
@[simp] theorem State.enterRunning_entry : (s.enterRunning).entry = s.entry := rfl
@[simp] theorem State.enterRunning_gCap : (s.enterRunning).gCap = s.gCap := rfl
@[simp] theorem State.enterRunning_traceOn : (s.enterRunning).traceOn = s.traceOn := rfl
@[simp] theorem State.enterRunning_ip : (s.enterRunning).ip = s.ip := rfl
@[simp] theorem State.enterRunning_cur : (s.enterRunning).cur = s.cur := rfl
@[simp] theorem State.enterRunning_sp : (s.enterRunning).sp = s.sp := rfl
@[simp] theorem State.enterRunning_stack : (s.enterRunning).stack = s.stack := rfl
@[simp] theorem State.enterRunning_fp : (s.enterRunning).fp = s.fp := rfl
@[simp] theorem State.enterRunning_frames : (s.enterRunning).frames = s.frames := rfl
@[simp] theorem State.enterRunning_globals : (s.enterRunning).globals = s.globals := rfl
@[simp] theorem State.enterRunning_out : (s.enterRunning).out = s.out := rfl
@[simp] theorem State.enterRunning_trace : (s.enterRunning).trace = s.trace := rfl
@[simp] theorem State.enterRunning_runState : (s.enterRunning).runState = .running := rfl
@[simp] theorem State.enterRunning_faultKind : (s.enterRunning).faultKind = none := rfl
@[simp] theorem State.enterRunning_faultOffset : (s.enterRunning).faultOffset = 0 := rfl

/-! ### putLocal -/

@[simp] theorem State.putLocal_params (r : FrameRecord) (i : Nat) (v : Word) : (s.putLocal r i v).params = s.params := rfl
@[simp] theorem State.putLocal_code (r : FrameRecord) (i : Nat) (v : Word) : (s.putLocal r i v).code = s.code := rfl
@[simp] theorem State.putLocal_entry (r : FrameRecord) (i : Nat) (v : Word) : (s.putLocal r i v).entry = s.entry := rfl
@[simp] theorem State.putLocal_gCap (r : FrameRecord) (i : Nat) (v : Word) : (s.putLocal r i v).gCap = s.gCap := rfl
@[simp] theorem State.putLocal_traceOn (r : FrameRecord) (i : Nat) (v : Word) : (s.putLocal r i v).traceOn = s.traceOn := rfl
@[simp] theorem State.putLocal_ip (r : FrameRecord) (i : Nat) (v : Word) : (s.putLocal r i v).ip = s.ip := rfl
@[simp] theorem State.putLocal_cur (r : FrameRecord) (i : Nat) (v : Word) : (s.putLocal r i v).cur = s.cur := rfl
@[simp] theorem State.putLocal_sp (r : FrameRecord) (i : Nat) (v : Word) : (s.putLocal r i v).sp = s.sp := rfl
@[simp] theorem State.putLocal_stack (r : FrameRecord) (i : Nat) (v : Word) : (s.putLocal r i v).stack = s.stack := rfl
@[simp] theorem State.putLocal_fp (r : FrameRecord) (i : Nat) (v : Word) : (s.putLocal r i v).fp = s.fp := rfl
@[simp] theorem State.putLocal_frames (r : FrameRecord) (i : Nat) (v : Word) : (s.putLocal r i v).frames = cellPut s.frames s.fp.toNat { r with locals := r.locals.write i v } := rfl
@[simp] theorem State.putLocal_globals (r : FrameRecord) (i : Nat) (v : Word) : (s.putLocal r i v).globals = s.globals := rfl
@[simp] theorem State.putLocal_out (r : FrameRecord) (i : Nat) (v : Word) : (s.putLocal r i v).out = s.out := rfl
@[simp] theorem State.putLocal_trace (r : FrameRecord) (i : Nat) (v : Word) : (s.putLocal r i v).trace = s.trace := rfl
@[simp] theorem State.putLocal_runState (r : FrameRecord) (i : Nat) (v : Word) : (s.putLocal r i v).runState = s.runState := rfl
@[simp] theorem State.putLocal_faultKind (r : FrameRecord) (i : Nat) (v : Word) : (s.putLocal r i v).faultKind = s.faultKind := rfl
@[simp] theorem State.putLocal_faultOffset (r : FrameRecord) (i : Nat) (v : Word) : (s.putLocal r i v).faultOffset = s.faultOffset := rfl

/-! ### enterCall -/

@[simp] theorem State.enterCall_params (args : List Word) (target : Word) : (s.enterCall args target).params = s.params := rfl
@[simp] theorem State.enterCall_code (args : List Word) (target : Word) : (s.enterCall args target).code = s.code := rfl
@[simp] theorem State.enterCall_entry (args : List Word) (target : Word) : (s.enterCall args target).entry = s.entry := rfl
@[simp] theorem State.enterCall_gCap (args : List Word) (target : Word) : (s.enterCall args target).gCap = s.gCap := rfl
@[simp] theorem State.enterCall_traceOn (args : List Word) (target : Word) : (s.enterCall args target).traceOn = s.traceOn := rfl
@[simp] theorem State.enterCall_ip (args : List Word) (target : Word) : (s.enterCall args target).ip = operandIndex target := rfl
@[simp] theorem State.enterCall_cur (args : List Word) (target : Word) : (s.enterCall args target).cur = s.cur := rfl
@[simp] theorem State.enterCall_sp (args : List Word) (target : Word) : (s.enterCall args target).sp = s.sp - args.length := rfl
@[simp] theorem State.enterCall_stack (args : List Word) (target : Word) : (s.enterCall args target).stack = s.stack := rfl
@[simp] theorem State.enterCall_fp (args : List Word) (target : Word) : (s.enterCall args target).fp = s.fp + 1 := rfl
@[simp] theorem State.enterCall_frames (args : List Word) (target : Word) : (s.enterCall args target).frames = cellPut s.frames (s.fp + 1).toNat (s.callRecord args) := rfl
@[simp] theorem State.enterCall_globals (args : List Word) (target : Word) : (s.enterCall args target).globals = s.globals := rfl
@[simp] theorem State.enterCall_out (args : List Word) (target : Word) : (s.enterCall args target).out = s.out := rfl
@[simp] theorem State.enterCall_trace (args : List Word) (target : Word) : (s.enterCall args target).trace = s.trace := rfl
@[simp] theorem State.enterCall_runState (args : List Word) (target : Word) : (s.enterCall args target).runState = s.runState := rfl
@[simp] theorem State.enterCall_faultKind (args : List Word) (target : Word) : (s.enterCall args target).faultKind = s.faultKind := rfl
@[simp] theorem State.enterCall_faultOffset (args : List Word) (target : Word) : (s.enterCall args target).faultOffset = s.faultOffset := rfl

/-! ### leaveFrame -/

@[simp] theorem State.leaveFrame_params (r : FrameRecord) : (s.leaveFrame r).params = s.params := rfl
@[simp] theorem State.leaveFrame_code (r : FrameRecord) : (s.leaveFrame r).code = s.code := rfl
@[simp] theorem State.leaveFrame_entry (r : FrameRecord) : (s.leaveFrame r).entry = s.entry := rfl
@[simp] theorem State.leaveFrame_gCap (r : FrameRecord) : (s.leaveFrame r).gCap = s.gCap := rfl
@[simp] theorem State.leaveFrame_traceOn (r : FrameRecord) : (s.leaveFrame r).traceOn = s.traceOn := rfl
@[simp] theorem State.leaveFrame_ip (r : FrameRecord) : (s.leaveFrame r).ip = r.retIp := rfl
@[simp] theorem State.leaveFrame_cur (r : FrameRecord) : (s.leaveFrame r).cur = s.cur := rfl
@[simp] theorem State.leaveFrame_sp (r : FrameRecord) : (s.leaveFrame r).sp = s.sp := rfl
@[simp] theorem State.leaveFrame_stack (r : FrameRecord) : (s.leaveFrame r).stack = s.stack := rfl
@[simp] theorem State.leaveFrame_fp (r : FrameRecord) : (s.leaveFrame r).fp = r.savedFp := rfl
@[simp] theorem State.leaveFrame_frames (r : FrameRecord) : (s.leaveFrame r).frames = cellErase s.frames s.fp.toNat := rfl
@[simp] theorem State.leaveFrame_globals (r : FrameRecord) : (s.leaveFrame r).globals = s.globals := rfl
@[simp] theorem State.leaveFrame_out (r : FrameRecord) : (s.leaveFrame r).out = s.out := rfl
@[simp] theorem State.leaveFrame_trace (r : FrameRecord) : (s.leaveFrame r).trace = s.trace := rfl
@[simp] theorem State.leaveFrame_runState (r : FrameRecord) : (s.leaveFrame r).runState = s.runState := rfl
@[simp] theorem State.leaveFrame_faultKind (r : FrameRecord) : (s.leaveFrame r).faultKind = s.faultKind := rfl
@[simp] theorem State.leaveFrame_faultOffset (r : FrameRecord) : (s.leaveFrame r).faultOffset = s.faultOffset := rfl

/-! ### started -/

@[simp] theorem State.started_params (code : List Word) (entry gCap : Nat) (trace : Bool) : (s.started code entry gCap trace).params = s.params := rfl
@[simp] theorem State.started_code (code : List Word) (entry gCap : Nat) (trace : Bool) : (s.started code entry gCap trace).code = code := rfl
@[simp] theorem State.started_entry (code : List Word) (entry gCap : Nat) (trace : Bool) : (s.started code entry gCap trace).entry = entry := rfl
@[simp] theorem State.started_gCap (code : List Word) (entry gCap : Nat) (trace : Bool) : (s.started code entry gCap trace).gCap = gCap := rfl
@[simp] theorem State.started_traceOn (code : List Word) (entry gCap : Nat) (trace : Bool) : (s.started code entry gCap trace).traceOn = trace := rfl
@[simp] theorem State.started_ip (code : List Word) (entry gCap : Nat) (trace : Bool) : (s.started code entry gCap trace).ip = entry := rfl
@[simp] theorem State.started_cur (code : List Word) (entry gCap : Nat) (trace : Bool) : (s.started code entry gCap trace).cur = s.cur := rfl
@[simp] theorem State.started_sp (code : List Word) (entry gCap : Nat) (trace : Bool) : (s.started code entry gCap trace).sp = -1 := rfl
@[simp] theorem State.started_stack (code : List Word) (entry gCap : Nat) (trace : Bool) : (s.started code entry gCap trace).stack = s.stack := rfl
@[simp] theorem State.started_fp (code : List Word) (entry gCap : Nat) (trace : Bool) : (s.started code entry gCap trace).fp = -1 := rfl
@[simp] theorem State.started_frames (code : List Word) (entry gCap : Nat) (trace : Bool) : (s.started code entry gCap trace).frames = s.frames := rfl
@[simp] theorem State.started_globals (code : List Word) (entry gCap : Nat) (trace : Bool) : (s.started code entry gCap trace).globals = [] := rfl
@[simp] theorem State.started_out (code : List Word) (entry gCap : Nat) (trace : Bool) : (s.started code entry gCap trace).out = [] := rfl
@[simp] theorem State.started_trace (code : List Word) (entry gCap : Nat) (trace : Bool) : (s.started code entry gCap trace).trace = [] := rfl
@[simp] theorem State.started_runState (code : List Word) (entry gCap : Nat) (trace : Bool) : (s.started code entry gCap trace).runState = .running := rfl
@[simp] theorem State.started_faultKind (code : List Word) (entry gCap : Nat) (trace : Bool) : (s.started code entry gCap trace).faultKind = none := rfl
@[simp] theorem State.started_faultOffset (code : List Word) (entry gCap : Nat) (trace : Bool) : (s.started code entry gCap trace).faultOffset = 0 := rfl

/-! ### withProgramAtIp -/

@[simp] theorem State.withProgramAtIp_params (ws : List Word) : (s.withProgramAtIp ws).params = s.params := rfl
@[simp] theorem State.withProgramAtIp_code (ws : List Word) : (s.withProgramAtIp ws).code = placeWords s.code s.ip ws := rfl
@[simp] theorem State.withProgramAtIp_entry (ws : List Word) : (s.withProgramAtIp ws).entry = s.entry := rfl
@[simp] theorem State.withProgramAtIp_gCap (ws : List Word) : (s.withProgramAtIp ws).gCap = s.gCap := rfl
@[simp] theorem State.withProgramAtIp_traceOn (ws : List Word) : (s.withProgramAtIp ws).traceOn = s.traceOn := rfl
@[simp] theorem State.withProgramAtIp_ip (ws : List Word) : (s.withProgramAtIp ws).ip = s.ip := rfl
@[simp] theorem State.withProgramAtIp_cur (ws : List Word) : (s.withProgramAtIp ws).cur = s.cur := rfl
@[simp] theorem State.withProgramAtIp_sp (ws : List Word) : (s.withProgramAtIp ws).sp = s.sp := rfl
@[simp] theorem State.withProgramAtIp_stack (ws : List Word) : (s.withProgramAtIp ws).stack = s.stack := rfl
@[simp] theorem State.withProgramAtIp_fp (ws : List Word) : (s.withProgramAtIp ws).fp = s.fp := rfl
@[simp] theorem State.withProgramAtIp_frames (ws : List Word) : (s.withProgramAtIp ws).frames = s.frames := rfl
@[simp] theorem State.withProgramAtIp_globals (ws : List Word) : (s.withProgramAtIp ws).globals = s.globals := rfl
@[simp] theorem State.withProgramAtIp_out (ws : List Word) : (s.withProgramAtIp ws).out = s.out := rfl
@[simp] theorem State.withProgramAtIp_trace (ws : List Word) : (s.withProgramAtIp ws).trace = s.trace := rfl
@[simp] theorem State.withProgramAtIp_runState (ws : List Word) : (s.withProgramAtIp ws).runState = .running := rfl
@[simp] theorem State.withProgramAtIp_faultKind (ws : List Word) : (s.withProgramAtIp ws).faultKind = none := rfl
@[simp] theorem State.withProgramAtIp_faultOffset (ws : List Word) : (s.withProgramAtIp ws).faultOffset = 0 := rfl

/-! ### traceInstr and decoded -/

@[simp] theorem State.traceInstr_params (i : Instr) : (s.traceInstr i).params = s.params := by
  unfold State.traceInstr; split <;> rfl
@[simp] theorem State.traceInstr_code (i : Instr) : (s.traceInstr i).code = s.code := by
  unfold State.traceInstr; split <;> rfl
@[simp] theorem State.traceInstr_entry (i : Instr) : (s.traceInstr i).entry = s.entry := by
  unfold State.traceInstr; split <;> rfl
@[simp] theorem State.traceInstr_gCap (i : Instr) : (s.traceInstr i).gCap = s.gCap := by
  unfold State.traceInstr; split <;> rfl
@[simp] theorem State.traceInstr_traceOn (i : Instr) : (s.traceInstr i).traceOn = s.traceOn := by
  unfold State.traceInstr; split <;> rfl
@[simp] theorem State.traceInstr_ip (i : Instr) : (s.traceInstr i).ip = s.ip := by
  unfold State.traceInstr; split <;> rfl
@[simp] theorem State.traceInstr_cur (i : Instr) : (s.traceInstr i).cur = s.cur := by
  unfold State.traceInstr; split <;> rfl
@[simp] theorem State.traceInstr_sp (i : Instr) : (s.traceInstr i).sp = s.sp := by
  unfold State.traceInstr; split <;> rfl
@[simp] theorem State.traceInstr_stack (i : Instr) : (s.traceInstr i).stack = s.stack := by
  unfold State.traceInstr; split <;> rfl
@[simp] theorem State.traceInstr_fp (i : Instr) : (s.traceInstr i).fp = s.fp := by
  unfold State.traceInstr; split <;> rfl
@[simp] theorem State.traceInstr_frames (i : Instr) : (s.traceInstr i).frames = s.frames := by
  unfold State.traceInstr; split <;> rfl
@[simp] theorem State.traceInstr_globals (i : Instr) : (s.traceInstr i).globals = s.globals := by
  unfold State.traceInstr; split <;> rfl
@[simp] theorem State.traceInstr_out (i : Instr) : (s.traceInstr i).out = s.out := by
  unfold State.traceInstr; split <;> rfl
theorem State.traceInstr_trace (i : Instr) :
    (s.traceInstr i).trace = if s.traceOn then s.trace ++ [s.traceRecord i] else s.trace := by
  unfold State.traceInstr; split <;> rfl
@[simp] theorem State.traceInstr_runState (i : Instr) : (s.traceInstr i).runState = s.runState := by
  unfold State.traceInstr; split <;> rfl
@[simp] theorem State.traceInstr_faultKind (i : Instr) : (s.traceInstr i).faultKind = s.faultKind := by
  unfold State.traceInstr; split <;> rfl
@[simp] theorem State.traceInstr_faultOffset (i : Instr) : (s.traceInstr i).faultOffset = s.faultOffset := by
  unfold State.traceInstr; split <;> rfl
@[simp] theorem State.decoded_params (i : Instr) : (s.decoded i).params = s.params := by
  simp [State.decoded]
@[simp] theorem State.decoded_code (i : Instr) : (s.decoded i).code = s.code := by
  simp [State.decoded]
@[simp] theorem State.decoded_entry (i : Instr) : (s.decoded i).entry = s.entry := by
  simp [State.decoded]
@[simp] theorem State.decoded_gCap (i : Instr) : (s.decoded i).gCap = s.gCap := by
  simp [State.decoded]
@[simp] theorem State.decoded_traceOn (i : Instr) : (s.decoded i).traceOn = s.traceOn := by
  simp [State.decoded]
@[simp] theorem State.decoded_ip (i : Instr) : (s.decoded i).ip = s.ip + i.size := by
  simp [State.decoded]
@[simp] theorem State.decoded_cur (i : Instr) : (s.decoded i).cur = s.ip := by
  simp [State.decoded]
@[simp] theorem State.decoded_sp (i : Instr) : (s.decoded i).sp = s.sp := by
  simp [State.decoded]
@[simp] theorem State.decoded_stack (i : Instr) : (s.decoded i).stack = s.stack := by
  simp [State.decoded]
@[simp] theorem State.decoded_fp (i : Instr) : (s.decoded i).fp = s.fp := by
  simp [State.decoded]
@[simp] theorem State.decoded_frames (i : Instr) : (s.decoded i).frames = s.frames := by
  simp [State.decoded]
@[simp] theorem State.decoded_globals (i : Instr) : (s.decoded i).globals = s.globals := by
  simp [State.decoded]
@[simp] theorem State.decoded_out (i : Instr) : (s.decoded i).out = s.out := by
  simp [State.decoded]
@[simp] theorem State.decoded_runState (i : Instr) : (s.decoded i).runState = s.runState := by
  simp [State.decoded]
@[simp] theorem State.decoded_faultKind (i : Instr) : (s.decoded i).faultKind = s.faultKind := by
  simp [State.decoded]
@[simp] theorem State.decoded_faultOffset (i : Instr) : (s.decoded i).faultOffset = s.faultOffset := by
  simp [State.decoded]

end Sys2Proof.Machine
end

