-- ==== Sys2Proof/Laws/Views.lean ====
section
/-!
SUPPORT. How the computed views of State (slots, records, the floor, CODE_LEN) read after each update that does not touch
what they read.
-/

namespace Sys2Proof.Machine

variable {s t : State}

theorem State.hasSlot_congr (hp : t.params = s.params) : t.hasSlot = s.hasSlot := by
  funext j; simp [State.hasSlot, hp]

theorem State.hasFrame_congr (hp : t.params = s.params) : t.hasFrame = s.hasFrame := by
  funext j; simp [State.hasFrame, hp]

theorem State.slot?_congr (hp : t.params = s.params) (hs : t.stack = s.stack) : t.slot? = s.slot? := by
  funext j; simp [State.slot?, State.hasSlot_congr hp, hs]

theorem State.frame?_congr (hp : t.params = s.params) (hf : t.frames = s.frames) : t.frame? = s.frame? := by
  funext j; simp [State.frame?, State.hasFrame_congr hp, hf]

theorem State.floor?_congr (hp : t.params = s.params) (hf : t.frames = s.frames) (h : t.fp = s.fp) :
    t.floor? = s.floor? := by
  simp only [State.floor?, h, State.frame?_congr hp hf]

/-! ### setIp -/

@[simp] theorem State.codeLen_setIp (a : Nat) : (s.setIp a).codeLen = s.codeLen := rfl
@[simp] theorem State.hasSlot_setIp (a : Nat) : (s.setIp a).hasSlot = s.hasSlot :=
  State.hasSlot_congr rfl
@[simp] theorem State.hasFrame_setIp (a : Nat) : (s.setIp a).hasFrame = s.hasFrame :=
  State.hasFrame_congr rfl
@[simp] theorem State.slot?_setIp (a : Nat) : (s.setIp a).slot? = s.slot? :=
  State.slot?_congr rfl rfl
@[simp] theorem State.frame?_setIp (a : Nat) : (s.setIp a).frame? = s.frame? :=
  State.frame?_congr rfl rfl
@[simp] theorem State.floor?_setIp (a : Nat) : (s.setIp a).floor? = s.floor? :=
  State.floor?_congr rfl rfl rfl

/-! ### setCur -/

@[simp] theorem State.codeLen_setCur (a : Nat) : (s.setCur a).codeLen = s.codeLen := rfl
@[simp] theorem State.hasSlot_setCur (a : Nat) : (s.setCur a).hasSlot = s.hasSlot :=
  State.hasSlot_congr rfl
@[simp] theorem State.hasFrame_setCur (a : Nat) : (s.setCur a).hasFrame = s.hasFrame :=
  State.hasFrame_congr rfl
@[simp] theorem State.slot?_setCur (a : Nat) : (s.setCur a).slot? = s.slot? :=
  State.slot?_congr rfl rfl
@[simp] theorem State.frame?_setCur (a : Nat) : (s.setCur a).frame? = s.frame? :=
  State.frame?_congr rfl rfl
@[simp] theorem State.floor?_setCur (a : Nat) : (s.setCur a).floor? = s.floor? :=
  State.floor?_congr rfl rfl rfl

/-! ### setSp -/

@[simp] theorem State.codeLen_setSp (i : Int) : (s.setSp i).codeLen = s.codeLen := rfl
@[simp] theorem State.hasSlot_setSp (i : Int) : (s.setSp i).hasSlot = s.hasSlot :=
  State.hasSlot_congr rfl
@[simp] theorem State.hasFrame_setSp (i : Int) : (s.setSp i).hasFrame = s.hasFrame :=
  State.hasFrame_congr rfl
@[simp] theorem State.slot?_setSp (i : Int) : (s.setSp i).slot? = s.slot? :=
  State.slot?_congr rfl rfl
@[simp] theorem State.frame?_setSp (i : Int) : (s.setSp i).frame? = s.frame? :=
  State.frame?_congr rfl rfl
@[simp] theorem State.floor?_setSp (i : Int) : (s.setSp i).floor? = s.floor? :=
  State.floor?_congr rfl rfl rfl

/-! ### setFp -/

@[simp] theorem State.codeLen_setFp (k : Int) : (s.setFp k).codeLen = s.codeLen := rfl
@[simp] theorem State.hasSlot_setFp (k : Int) : (s.setFp k).hasSlot = s.hasSlot :=
  State.hasSlot_congr rfl
@[simp] theorem State.hasFrame_setFp (k : Int) : (s.setFp k).hasFrame = s.hasFrame :=
  State.hasFrame_congr rfl
@[simp] theorem State.slot?_setFp (k : Int) : (s.setFp k).slot? = s.slot? :=
  State.slot?_congr rfl rfl
@[simp] theorem State.frame?_setFp (k : Int) : (s.setFp k).frame? = s.frame? :=
  State.frame?_congr rfl rfl

/-! ### putSlot -/

@[simp] theorem State.codeLen_putSlot (i : Int) (v : Word) : (s.putSlot i v).codeLen = s.codeLen := rfl
@[simp] theorem State.hasSlot_putSlot (i : Int) (v : Word) : (s.putSlot i v).hasSlot = s.hasSlot :=
  State.hasSlot_congr rfl
@[simp] theorem State.hasFrame_putSlot (i : Int) (v : Word) : (s.putSlot i v).hasFrame = s.hasFrame :=
  State.hasFrame_congr rfl
@[simp] theorem State.frame?_putSlot (i : Int) (v : Word) : (s.putSlot i v).frame? = s.frame? :=
  State.frame?_congr rfl rfl
@[simp] theorem State.floor?_putSlot (i : Int) (v : Word) : (s.putSlot i v).floor? = s.floor? :=
  State.floor?_congr rfl rfl rfl

/-! ### putGlobal -/

@[simp] theorem State.codeLen_putGlobal (i : Nat) (v : Word) : (s.putGlobal i v).codeLen = s.codeLen := rfl
@[simp] theorem State.hasSlot_putGlobal (i : Nat) (v : Word) : (s.putGlobal i v).hasSlot = s.hasSlot :=
  State.hasSlot_congr rfl
@[simp] theorem State.hasFrame_putGlobal (i : Nat) (v : Word) : (s.putGlobal i v).hasFrame = s.hasFrame :=
  State.hasFrame_congr rfl
@[simp] theorem State.slot?_putGlobal (i : Nat) (v : Word) : (s.putGlobal i v).slot? = s.slot? :=
  State.slot?_congr rfl rfl
@[simp] theorem State.frame?_putGlobal (i : Nat) (v : Word) : (s.putGlobal i v).frame? = s.frame? :=
  State.frame?_congr rfl rfl
@[simp] theorem State.floor?_putGlobal (i : Nat) (v : Word) : (s.putGlobal i v).floor? = s.floor? :=
  State.floor?_congr rfl rfl rfl

/-! ### putFrame -/

@[simp] theorem State.codeLen_putFrame (k : Int) (r : FrameRecord) : (s.putFrame k r).codeLen = s.codeLen := rfl
@[simp] theorem State.hasSlot_putFrame (k : Int) (r : FrameRecord) : (s.putFrame k r).hasSlot = s.hasSlot :=
  State.hasSlot_congr rfl
@[simp] theorem State.hasFrame_putFrame (k : Int) (r : FrameRecord) : (s.putFrame k r).hasFrame = s.hasFrame :=
  State.hasFrame_congr rfl
@[simp] theorem State.slot?_putFrame (k : Int) (r : FrameRecord) : (s.putFrame k r).slot? = s.slot? :=
  State.slot?_congr rfl rfl

/-! ### dropFrame -/

@[simp] theorem State.codeLen_dropFrame (k : Int) : (s.dropFrame k).codeLen = s.codeLen := rfl
@[simp] theorem State.hasSlot_dropFrame (k : Int) : (s.dropFrame k).hasSlot = s.hasSlot :=
  State.hasSlot_congr rfl
@[simp] theorem State.hasFrame_dropFrame (k : Int) : (s.dropFrame k).hasFrame = s.hasFrame :=
  State.hasFrame_congr rfl
@[simp] theorem State.slot?_dropFrame (k : Int) : (s.dropFrame k).slot? = s.slot? :=
  State.slot?_congr rfl rfl

/-! ### emit -/

@[simp] theorem State.codeLen_emit (v : Word) : (s.emit v).codeLen = s.codeLen := rfl
@[simp] theorem State.hasSlot_emit (v : Word) : (s.emit v).hasSlot = s.hasSlot :=
  State.hasSlot_congr rfl
@[simp] theorem State.hasFrame_emit (v : Word) : (s.emit v).hasFrame = s.hasFrame :=
  State.hasFrame_congr rfl
@[simp] theorem State.slot?_emit (v : Word) : (s.emit v).slot? = s.slot? :=
  State.slot?_congr rfl rfl
@[simp] theorem State.frame?_emit (v : Word) : (s.emit v).frame? = s.frame? :=
  State.frame?_congr rfl rfl
@[simp] theorem State.floor?_emit (v : Word) : (s.emit v).floor? = s.floor? :=
  State.floor?_congr rfl rfl rfl

/-! ### faulted -/

@[simp] theorem State.codeLen_faulted (k : FaultKind) : (s.faulted k).codeLen = s.codeLen := rfl
@[simp] theorem State.hasSlot_faulted (k : FaultKind) : (s.faulted k).hasSlot = s.hasSlot :=
  State.hasSlot_congr rfl
@[simp] theorem State.hasFrame_faulted (k : FaultKind) : (s.faulted k).hasFrame = s.hasFrame :=
  State.hasFrame_congr rfl
@[simp] theorem State.slot?_faulted (k : FaultKind) : (s.faulted k).slot? = s.slot? :=
  State.slot?_congr rfl rfl
@[simp] theorem State.frame?_faulted (k : FaultKind) : (s.faulted k).frame? = s.frame? :=
  State.frame?_congr rfl rfl
@[simp] theorem State.floor?_faulted (k : FaultKind) : (s.faulted k).floor? = s.floor? :=
  State.floor?_congr rfl rfl rfl

/-! ### halt -/

@[simp] theorem State.codeLen_halt : (s.halt).codeLen = s.codeLen := rfl
@[simp] theorem State.hasSlot_halt : (s.halt).hasSlot = s.hasSlot :=
  State.hasSlot_congr rfl
@[simp] theorem State.hasFrame_halt : (s.halt).hasFrame = s.hasFrame :=
  State.hasFrame_congr rfl
@[simp] theorem State.slot?_halt : (s.halt).slot? = s.slot? :=
  State.slot?_congr rfl rfl
@[simp] theorem State.frame?_halt : (s.halt).frame? = s.frame? :=
  State.frame?_congr rfl rfl
@[simp] theorem State.floor?_halt : (s.halt).floor? = s.floor? :=
  State.floor?_congr rfl rfl rfl

/-! ### putLocal -/

@[simp] theorem State.codeLen_putLocal (r : FrameRecord) (i : Nat) (v : Word) : (s.putLocal r i v).codeLen = s.codeLen := rfl
@[simp] theorem State.hasSlot_putLocal (r : FrameRecord) (i : Nat) (v : Word) : (s.putLocal r i v).hasSlot = s.hasSlot :=
  State.hasSlot_congr rfl
@[simp] theorem State.hasFrame_putLocal (r : FrameRecord) (i : Nat) (v : Word) : (s.putLocal r i v).hasFrame = s.hasFrame :=
  State.hasFrame_congr rfl
@[simp] theorem State.slot?_putLocal (r : FrameRecord) (i : Nat) (v : Word) : (s.putLocal r i v).slot? = s.slot? :=
  State.slot?_congr rfl rfl

/-! ### enterCall -/

@[simp] theorem State.codeLen_enterCall (args : List Word) (target : Word) : (s.enterCall args target).codeLen = s.codeLen := rfl
@[simp] theorem State.hasSlot_enterCall (args : List Word) (target : Word) : (s.enterCall args target).hasSlot = s.hasSlot :=
  State.hasSlot_congr rfl
@[simp] theorem State.hasFrame_enterCall (args : List Word) (target : Word) : (s.enterCall args target).hasFrame = s.hasFrame :=
  State.hasFrame_congr rfl
@[simp] theorem State.slot?_enterCall (args : List Word) (target : Word) : (s.enterCall args target).slot? = s.slot? :=
  State.slot?_congr rfl rfl

/-! ### leaveFrame -/

@[simp] theorem State.codeLen_leaveFrame (r : FrameRecord) : (s.leaveFrame r).codeLen = s.codeLen := rfl
@[simp] theorem State.hasSlot_leaveFrame (r : FrameRecord) : (s.leaveFrame r).hasSlot = s.hasSlot :=
  State.hasSlot_congr rfl
@[simp] theorem State.hasFrame_leaveFrame (r : FrameRecord) : (s.leaveFrame r).hasFrame = s.hasFrame :=
  State.hasFrame_congr rfl
@[simp] theorem State.slot?_leaveFrame (r : FrameRecord) : (s.leaveFrame r).slot? = s.slot? :=
  State.slot?_congr rfl rfl

/-! ### decoded -/

@[simp] theorem State.codeLen_decoded (i : Instr) : (s.decoded i).codeLen = s.codeLen := by simp [State.codeLen]
@[simp] theorem State.hasSlot_decoded (i : Instr) : (s.decoded i).hasSlot = s.hasSlot :=
  State.hasSlot_congr (by simp)
@[simp] theorem State.hasFrame_decoded (i : Instr) : (s.decoded i).hasFrame = s.hasFrame :=
  State.hasFrame_congr (by simp)
@[simp] theorem State.slot?_decoded (i : Instr) : (s.decoded i).slot? = s.slot? :=
  State.slot?_congr (by simp) (by simp)
@[simp] theorem State.frame?_decoded (i : Instr) : (s.decoded i).frame? = s.frame? :=
  State.frame?_congr (by simp) (by simp)
@[simp] theorem State.floor?_decoded (i : Instr) : (s.decoded i).floor? = s.floor? :=
  State.floor?_congr (by simp) (by simp) (by simp)

end Sys2Proof.Machine
end

