-- ==== Sys2Proof/Laws/Ops.lean ====
section
/-!
SUPPORT. What each shared operation can do: how slots, records and globals read after a write, and one inversion lemma
per operation ("if it answers next t, then …"), to be cited instead of unfolding the operation.
-/

namespace Sys2Proof.Machine

variable {s t : State}

/-! ### The checks as propositions -/

theorem State.hasSlot_iff {i : Int} : s.hasSlot i = true ↔ 0 ≤ i ∧ i < s.params.stackCap := by simp [State.hasSlot]

theorem State.hasFrame_iff {k : Int} : s.hasFrame k = true ↔ 0 ≤ k ∧ k < s.params.maxFrames := by
  simp [State.hasFrame]

theorem State.validTarget_iff {o : Word} : s.validTarget o = true ↔ 0 ≤ s32 o ∧ s32 o ≤ s.codeLen := by
  simp [State.validTarget]

theorem State.validLocal_iff {o : Word} :
    s.validLocal o = true ↔ s.fp ≠ -1 ∧ 0 ≤ s32 o ∧ s32 o < s.params.frameLocals := by
  simp [State.validLocal]

theorem State.validGlobal_iff {o : Word} : s.validGlobal o = true ↔ 0 ≤ s32 o ∧ s32 o < s.gCap := by
  simp [State.validGlobal]

theorem State.validNargs_iff {o : Word} : s.validNargs o = true ↔ 0 ≤ s32 o ∧ s32 o ≤ s.params.frameLocals := by
  simp [State.validNargs]

/-! ### Reading slots, records and floors -/

theorem State.slot?_eq_some {i : Int} {v : Word} :
    s.slot? i = some v ↔ s.hasSlot i = true ∧ s.stack.read i.toNat = v := by
  unfold State.slot?
  split_ifs with h <;> simp [h]

theorem State.frame?_eq_some {k : Int} {r : FrameRecord} :
    s.frame? k = some r ↔ s.hasFrame k = true ∧ cellGet s.frames k.toNat = some r := by
  unfold State.frame?
  split_ifs with h <;> simp [h]

theorem State.floor?_top (h : s.fp = -1) : s.floor? = some (-1) := by simp [State.floor?, h]

theorem State.floor?_frame (h : s.fp ≠ -1) : s.floor? = (s.frame? s.fp).map FrameRecord.savedSp := by
  simp [State.floor?, h]

/-- A write to a slot that exists is read back there, and every other slot reads as before. -/
theorem State.slot?_putSlot {i : Int} (hi : s.hasSlot i) (v : Word) (j : Int) :
    (s.putSlot i v).slot? j = if j = i then some v else s.slot? j := by
  have e : (s.putSlot i v).hasSlot j = s.hasSlot j := rfl
  by_cases hj : s.hasSlot j
  · have hij : j.toNat = i.toNat ↔ j = i := by rw [State.hasSlot_iff] at hi hj; omega
    simp only [State.slot?, e, hj, if_true, State.putSlot_stack, Memory.read_write, hij]
    split_ifs <;> rfl
  · have : j ≠ i := fun h => hj (h ▸ hi)
    simp [State.slot?, e, hj, this]

/-- A write to a record that exists is read back there, and every other record reads as before. -/
theorem State.frame?_putFrame {k : Int} (hk : s.hasFrame k) (r : FrameRecord) (j : Int) :
    (s.putFrame k r).frame? j = if j = k then some r else s.frame? j := by
  have e : (s.putFrame k r).hasFrame j = s.hasFrame j := rfl
  by_cases h : j = k
  · subst h; simp [State.frame?, e, hk]
  · by_cases hj : s.hasFrame j
    · have : j.toNat ≠ k.toNat := by rw [State.hasFrame_iff] at hj hk; omega
      simp [State.frame?, e, hj, h, cellGet_cellPut_other _ _ this]
    · simp [State.frame?, e, hj, h]

/-- Destroying a record leaves every other record as it was. -/
theorem State.frame?_dropFrame {k : Int} (hk : s.hasFrame k) (j : Int) :
    (s.dropFrame k).frame? j = if j = k then none else s.frame? j := by
  have e : (s.dropFrame k).hasFrame j = s.hasFrame j := rfl
  by_cases h : j = k
  · subst h; simp [State.frame?]
  · by_cases hj : s.hasFrame j
    · have : j.toNat ≠ k.toNat := by rw [State.hasFrame_iff] at hj hk; omega
      simp [State.frame?, e, hj, h, cellGet_cellErase_other _ this]
    · simp [State.frame?, e, hj, h]

/-- RET leaves every record but the one it destroys. -/
theorem State.frame?_leaveFrame (hk : s.hasFrame s.fp) (r : FrameRecord) (j : Int) :
    (s.leaveFrame r).frame? j = if j = s.fp then none else s.frame? j := by
  rw [← State.frame?_dropFrame hk]
  exact congrFun (State.frame?_congr rfl rfl) j

/-- STORE replaces the active frame's record and leaves every other. -/
theorem State.frame?_putLocal (hk : s.hasFrame s.fp) (r : FrameRecord) (i : Nat) (v : Word) (j : Int) :
    (s.putLocal r i v).frame? j = if j = s.fp then some { r with locals := r.locals.write i v } else s.frame? j :=
  State.frame?_putFrame hk _ j

/-- CALL puts its record above the active one and leaves every other. -/
theorem State.frame?_enterCall (hk : s.hasFrame (s.fp + 1)) (args : List Word) (target : Word) (j : Int) :
    (s.enterCall args target).frame? j = if j = s.fp + 1 then some (s.callRecord args) else s.frame? j := by
  rw [← State.frame?_putFrame hk]
  exact congrFun (State.frame?_congr rfl rfl) j

/-! ### Inversion: what a shared operation did when it answers a next state -/

theorem State.raise_eq_next {k : FaultKind} : s.raise k = .next t ↔ t = s.faulted k := by
  simp [State.raise, eq_comm]

theorem State.withSlot_eq_next {i : Int} {f : Word → Result} :
    s.withSlot i f = .next t ↔ ∃ v, s.slot? i = some v ∧ f v = .next t := by
  unfold State.withSlot
  cases s.slot? i <;> simp

theorem State.withFrame_eq_next {f : FrameRecord → Result} :
    s.withFrame f = .next t ↔ ∃ r, s.frame? s.fp = some r ∧ f r = .next t := by
  unfold State.withFrame
  cases s.frame? s.fp <;> simp

theorem State.needDepth_eq_next {n : Int} {r : Result} :
    s.needDepth n r = .next t ↔ ∃ floor, s.floor? = some floor ∧
      ((s.sp - floor < n ∧ t = s.faulted .stackUnderflow) ∨ (n ≤ s.sp - floor ∧ r = .next t)) := by
  unfold State.needDepth State.depth?
  cases s.floor? with
  | none => simp
  | some floor =>
    simp only [Option.map_some, Option.some.injEq]
    split_ifs with h
    · simp [State.raise_eq_next, h, not_le.2 h]
    · simp [h, not_lt.1 h]

theorem State.push_eq_next {v : Word} :
    s.push v = .next t ↔ (s.sp = s.params.stackCap - 1 ∧ t = s.faulted .stackOverflow) ∨
      (s.hasSlot (s.sp + 1) = true ∧ t = (s.setSp (s.sp + 1)).putSlot (s.sp + 1) v) := by
  unfold State.push
  split_ifs with h1 h2
  · have : s.hasSlot (s.sp + 1) = false := by simp [State.hasSlot]; omega
    simp only [State.raise_eq_next, this, Bool.false_eq_true, false_and, or_false]
    simp only [h1, true_and]
  · simp [h1, h2, eq_comm]
  · simp [h1, h2]

theorem State.pop_eq_next {f : Word → State → Result} :
    s.pop f = .next t ↔ ∃ floor, s.floor? = some floor ∧
      ((s.sp - floor < 1 ∧ t = s.faulted .stackUnderflow) ∨
       (1 ≤ s.sp - floor ∧ ∃ v, s.slot? s.sp = some v ∧ f v (s.setSp (s.sp - 1)) = .next t)) := by
  simp only [State.pop, State.needDepth_eq_next, State.withSlot_eq_next]

theorem State.needTarget_eq_next {target : Word} {r : Result} :
    s.needTarget target r = .next t ↔
      (s.validTarget target = true ∧ r = .next t) ∨ (s.validTarget target = false ∧ t = s.faulted .programBoundsError) := by
  unfold State.needTarget
  split_ifs with h <;> simp [h, State.raise_eq_next]

theorem State.needLocal_eq_next {o : Word} {r : Result} :
    s.needLocal o r = .next t ↔
      (s.validLocal o = true ∧ r = .next t) ∨ (s.validLocal o = false ∧ t = s.faulted .invalidLocalOffset) := by
  unfold State.needLocal
  split_ifs with h <;> simp [h, State.raise_eq_next]

theorem State.needGlobal_eq_next {o : Word} {r : Result} :
    s.needGlobal o r = .next t ↔
      (s.validGlobal o = true ∧ r = .next t) ∨ (s.validGlobal o = false ∧ t = s.faulted .invalidGlobalIndex) := by
  unfold State.needGlobal
  split_ifs with h <;> simp [h, State.raise_eq_next]

theorem State.needNargs_eq_next {o : Word} {r : Result} :
    s.needNargs o r = .next t ↔
      (s.validNargs o = true ∧ r = .next t) ∨ (s.validNargs o = false ∧ t = s.faulted .invalidLocalOffset) := by
  unfold State.needNargs
  split_ifs with h <;> simp [h, State.raise_eq_next]

/-! ### The arguments of CALL -/

theorem State.slotsFrom?_eq_some {i : Int} {n : Nat} {ws : List Word} (h : s.slotsFrom? i n = some ws) :
    ws.length = n ∧ ∀ j < n, s.slot? (i + j) = ws[j]? := by
  induction n generalizing i ws with
  | zero => simp [State.slotsFrom?] at h; simp [← h]
  | succ n ih =>
    unfold State.slotsFrom? at h
    split at h
    · rename_i v vs hv hvs
      obtain rfl := Option.some.inj h
      obtain ⟨hl, hr⟩ := ih hvs
      refine ⟨by simp [hl], fun j hj => ?_⟩
      cases j with
      | zero => simpa using hv
      | succ j =>
        have := hr j (by omega)
        rw [List.getElem?_cons_succ, ← this]; congr 1; push_cast; ring
    · cases h

theorem State.slotsFrom?_exists {i : Int} {n : Nat} (h : ∀ j < n, s.hasSlot (i + (j : Int)) = true) :
    ∃ ws, s.slotsFrom? i n = some ws := by
  induction n generalizing i with
  | zero => exact ⟨[], rfl⟩
  | succ n ih =>
    have h0 := h 0 (by omega)
    obtain ⟨ws, hws⟩ := ih (i := i + 1) fun j hj => by
      have := h (j + 1) (by omega)
      rwa [show i + ((j + 1 : Nat) : Int) = i + 1 + j by push_cast; ring] at this
    refine ⟨s.stack.read i.toNat :: ws, ?_⟩
    have : s.slot? i = some (s.stack.read i.toNat) := by simpa [State.slot?] using h0
    simp [State.slotsFrom?, this, hws]

/-- The words CALL takes are those of the top `n` slots, deepest first. -/
theorem State.topWords?_eq_some {n : Nat} {ws : List Word} (h : s.topWords? n = some ws) :
    ws.length = n ∧ ∀ j < n, s.slot? (s.sp - n + 1 + j) = ws[j]? :=
  State.slotsFrom?_eq_some h

/-- The words CALL takes are there when the slots exist. -/
theorem State.topWords?_exists {n : Nat} (h1 : (n : Int) ≤ s.sp + 1) (h2 : s.sp < s.params.stackCap) :
    ∃ ws, s.topWords? n = some ws :=
  State.slotsFrom?_exists fun j hj => by rw [State.hasSlot_iff]; omega

/-! ### Inversion: what an instruction's shape did when it answers a next state -/

theorem State.aluStep_eq_next {f : Word → Word → Word} :
    s.aluStep f = .next t ↔ ∃ floor, s.floor? = some floor ∧
      ((s.sp - floor < 2 ∧ t = s.faulted .stackUnderflow) ∨
       (2 ≤ s.sp - floor ∧ ∃ b, s.slot? s.sp = some b ∧ ∃ a, s.slot? (s.sp - 1) = some a ∧
         t = (s.setSp (s.sp - 1)).putSlot (s.sp - 1) (f a b))) := by
  simp only [State.aluStep, State.needDepth_eq_next, State.withSlot_eq_next, Host.Outcome.next.injEq,
    eq_comm (b := t)]

theorem State.branchIf_eq_next {taken : Word → Bool} {target : Word} :
    s.branchIf taken target = .next t ↔ ∃ floor, s.floor? = some floor ∧
      ((s.sp - floor < 1 ∧ t = s.faulted .stackUnderflow) ∨
       (1 ≤ s.sp - floor ∧ ∃ c, s.slot? s.sp = some c ∧
         ((taken c = true ∧ s.validTarget target = true ∧ t = (s.setSp (s.sp - 1)).setIp (operandIndex target)) ∨
          (taken c = true ∧ s.validTarget target = false ∧ t = s.faulted .programBoundsError) ∨
          (taken c = false ∧ t = s.setSp (s.sp - 1))))) := by
  have key : ∀ c, (if taken c then s.needTarget target (.next ((s.setSp (s.sp - 1)).setIp (operandIndex target)))
      else .next (s.setSp (s.sp - 1))) = Host.Outcome.next t ↔
      ((taken c = true ∧ s.validTarget target = true ∧ t = (s.setSp (s.sp - 1)).setIp (operandIndex target)) ∨
          (taken c = true ∧ s.validTarget target = false ∧ t = s.faulted .programBoundsError) ∨
          (taken c = false ∧ t = s.setSp (s.sp - 1))) := by
    intro c
    split_ifs with h <;> simp [h, State.needTarget_eq_next, eq_comm (b := t)]
  simp only [State.branchIf, State.pop_eq_next, key]

theorem State.callBody_eq_next {target : Word} {n : Nat} :
    s.callBody target n = .next t ↔ s.hasFrame (s.fp + 1) = true ∧
      ∃ args, s.topWords? n = some args ∧ t = s.enterCall args target := by
  unfold State.callBody
  split_ifs with h
  · cases s.topWords? n <;> simp [h, eq_comm (b := t)]
  · simp [h]

theorem execCall_eq_next {target nargs : Word} :
    execCall target nargs s = .next t ↔
      (s.validNargs nargs = true ∧ ∃ floor, s.floor? = some floor ∧
        ((s.sp - floor < s32 nargs ∧ t = s.faulted .stackUnderflow) ∨
         (s32 nargs ≤ s.sp - floor ∧
           ((s.fp = s.params.maxFrames - 1 ∧ t = s.faulted .stackOverflow) ∨
            (s.fp ≠ s.params.maxFrames - 1 ∧
              ((s.validTarget target = true ∧ s.hasFrame (s.fp + 1) = true ∧
                 ∃ args, s.topWords? (operandIndex nargs) = some args ∧ t = s.enterCall args target) ∨
               (s.validTarget target = false ∧ t = s.faulted .programBoundsError))))))) ∨
      (s.validNargs nargs = false ∧ t = s.faulted .invalidLocalOffset) := by
  have key : (if s.fp = s.params.maxFrames - 1 then s.raise .stackOverflow
      else s.needTarget target (s.callBody target (operandIndex nargs))) = Host.Outcome.next t ↔
      ((s.fp = s.params.maxFrames - 1 ∧ t = s.faulted .stackOverflow) ∨
        (s.fp ≠ s.params.maxFrames - 1 ∧
          ((s.validTarget target = true ∧ s.hasFrame (s.fp + 1) = true ∧
             ∃ args, s.topWords? (operandIndex nargs) = some args ∧ t = s.enterCall args target) ∨
           (s.validTarget target = false ∧ t = s.faulted .programBoundsError)))) := by
    split_ifs with h1
    · simp only [State.raise_eq_next, h1, true_and, ne_eq, not_true_eq_false, false_and, or_false]
    · simp only [State.needTarget_eq_next, State.callBody_eq_next, h1, false_and, false_or, ne_eq,
        not_false_eq_true, true_and]
  simp only [execCall, State.needNargs_eq_next, State.needDepth_eq_next, key]

theorem execRet_eq_next :
    execRet s = .next t ↔ (s.fp = -1 ∧ t = s.faulted .unbalancedReturn) ∨
      (s.fp ≠ -1 ∧ ∃ r, s.frame? s.fp = some r ∧
        ((r.savedSp < s.sp ∧ s.hasSlot (r.savedSp + 1) = true ∧ ∃ v, s.slot? s.sp = some v ∧
            t = ((s.putSlot (r.savedSp + 1) v).setSp (r.savedSp + 1)).leaveFrame r) ∨
         (s.sp ≤ r.savedSp ∧ t = (s.setSp r.savedSp).leaveFrame r))) := by
  unfold execRet
  split_ifs with h
  · simp only [h, State.raise_eq_next, true_and, ne_eq, not_true_eq_false, false_and, or_false]
  · simp only [h, State.withFrame_eq_next, false_and, false_or, ne_eq, not_false_eq_true, true_and]
    refine exists_congr fun r => and_congr_right fun _ => ?_
    by_cases h1 : r.savedSp < s.sp
    · by_cases h2 : s.hasSlot (r.savedSp + 1) = true <;>
        simp [h1, h2, not_le.2 h1, State.withSlot_eq_next, eq_comm (b := t)]
    · simp [h1, not_lt.1 h1, eq_comm (b := t)]

end Sys2Proof.Machine
end

