-- ==== Sys2Proof/Laws/Exec.lean ====
section
/-!
SUPPORT. What an instruction can do, said once: `exec_effect` lists every shape of next state, and `step_eq_next` says
what a step is. Rules about all instructions follow by cases on the shape.
-/

namespace Sys2Proof.Machine

/-- The shapes of the next state of the instruction `i`, each with the checks that come before it and, where one
instruction alone has the shape, which one. -/
inductive State.Effect (i : Instr) (s : State) : State → Prop where
  | fault (k : FaultKind) : Effect i s (s.faulted k)
  | halt (hi : i = .halt) : Effect i s s.halt
  | jump (target : Word) (hv : s.validTarget target = true) : Effect i s (s.setIp (operandIndex target))
  | push (v : Word) (hs : s.hasSlot (s.sp + 1) = true) : Effect i s ((s.setSp (s.sp + 1)).putSlot (s.sp + 1) v)
  | alu (floor : Int) (v : Word) (hf : s.floor? = some floor) (hd : 2 ≤ s.sp - floor)
      (hs : s.hasSlot (s.sp - 1) = true) : Effect i s ((s.setSp (s.sp - 1)).putSlot (s.sp - 1) v)
  | pop (floor : Int) (hf : s.floor? = some floor) (hd : 1 ≤ s.sp - floor) : Effect i s (s.setSp (s.sp - 1))
  | popJump (floor : Int) (target : Word) (hf : s.floor? = some floor) (hd : 1 ≤ s.sp - floor)
      (hv : s.validTarget target = true) : Effect i s ((s.setSp (s.sp - 1)).setIp (operandIndex target))
  | popLocal (floor : Int) (r : FrameRecord) (o v : Word) (hi : i = .store o) (hf : s.floor? = some floor)
      (hd : 1 ≤ s.sp - floor) (hr : s.frame? s.fp = some r) (ho : s.validLocal o = true) :
      Effect i s ((s.setSp (s.sp - 1)).putLocal r (operandIndex o) v)
  | popGlobal (floor : Int) (o v : Word) (hi : i = .gstore o) (hf : s.floor? = some floor)
      (hd : 1 ≤ s.sp - floor) (ho : s.validGlobal o = true) :
      Effect i s ((s.setSp (s.sp - 1)).putGlobal (operandIndex o) v)
  | popEmit (floor : Int) (v : Word) (hi : i = .print) (hf : s.floor? = some floor) (hd : 1 ≤ s.sp - floor)
      (hv : s.slot? s.sp = some v) : Effect i s ((s.setSp (s.sp - 1)).emit v)
  | call (floor : Int) (args : List Word) (target nargs : Word) (hi : i = .call target nargs)
      (hn : s32 nargs = args.length) (hf : s.floor? = some floor)
      (hd : args.length ≤ s.sp - floor) (hl : args.length ≤ s.params.frameLocals)
      (ha : s.topWords? args.length = some args) (hv : s.validTarget target = true)
      (hk : s.hasFrame (s.fp + 1) = true) : Effect i s (s.enterCall args target)
  | retValue (r : FrameRecord) (v : Word) (hi : i = .ret) (hfp : s.fp ≠ -1) (hr : s.frame? s.fp = some r)
      (hd : r.savedSp < s.sp) (hs : s.hasSlot (r.savedSp + 1) = true)
      (hv : s.slot? s.sp = some v) :
      Effect i s (((s.putSlot (r.savedSp + 1) v).setSp (r.savedSp + 1)).leaveFrame r)
  | ret (r : FrameRecord) (hi : i = .ret) (hfp : s.fp ≠ -1) (hr : s.frame? s.fp = some r) (hd : s.sp ≤ r.savedSp) :
      Effect i s ((s.setSp r.savedSp).leaveFrame r)

variable {s t : State}

theorem aluStep_effect {i : Instr} {f : Word → Word → Word} (h : s.aluStep f = .next t) : s.Effect i t := by
  obtain ⟨floor, hf, ⟨-, rfl⟩ | ⟨hd, b, -, a, ha, rfl⟩⟩ := State.aluStep_eq_next.1 h
  · exact .fault _
  · exact .alu floor _ hf hd (State.slot?_eq_some.1 ha).1

theorem push_effect {i : Instr} {v : Word} (h : s.push v = .next t) : s.Effect i t := by
  obtain ⟨-, rfl⟩ | ⟨hs, rfl⟩ := State.push_eq_next.1 h
  · exact .fault _
  · exact .push v hs

theorem branchIf_effect {i : Instr} {taken : Word → Bool} {target : Word} (h : s.branchIf taken target = .next t) :
    s.Effect i t := by
  obtain ⟨floor, hf, ⟨-, rfl⟩ | ⟨hd, c, -, ⟨-, hv, rfl⟩ | ⟨-, -, rfl⟩ | ⟨-, rfl⟩⟩⟩ := State.branchIf_eq_next.1 h
  · exact .fault _
  · exact .popJump floor target hf hd hv
  · exact .fault _
  · exact .pop floor hf hd

theorem execBr_effect {target : Word} (h : execBr target s = .next t) : s.Effect (.br target) t := by
  obtain ⟨hv, h⟩ | ⟨-, rfl⟩ := State.needTarget_eq_next.1 h
  · cases h; exact .jump target hv
  · exact .fault _

theorem execLoad_effect {o : Word} (h : execLoad o s = .next t) : s.Effect (.load o) t := by
  obtain ⟨-, h⟩ | ⟨-, rfl⟩ := State.needLocal_eq_next.1 h
  · obtain ⟨r, -, h⟩ := State.withFrame_eq_next.1 h
    exact push_effect h
  · exact .fault _

theorem execGload_effect {o : Word} (h : execGload o s = .next t) : s.Effect (.gload o) t := by
  obtain ⟨-, h⟩ | ⟨-, rfl⟩ := State.needGlobal_eq_next.1 h
  · exact push_effect h
  · exact .fault _

theorem execStore_effect {o : Word} (h : execStore o s = .next t) : s.Effect (.store o) t := by
  obtain ⟨ho, h⟩ | ⟨-, rfl⟩ := State.needLocal_eq_next.1 h
  · obtain ⟨floor, hf, ⟨-, rfl⟩ | ⟨hd, v, -, h⟩⟩ := State.pop_eq_next.1 h
    · exact .fault _
    · obtain ⟨r, hr, h⟩ := State.withFrame_eq_next.1 h
      cases h; exact .popLocal floor r o v rfl hf hd hr ho
  · exact .fault _

theorem execGstore_effect {o : Word} (h : execGstore o s = .next t) : s.Effect (.gstore o) t := by
  obtain ⟨ho, h⟩ | ⟨-, rfl⟩ := State.needGlobal_eq_next.1 h
  · obtain ⟨floor, hf, ⟨-, rfl⟩ | ⟨hd, v, -, h⟩⟩ := State.pop_eq_next.1 h
    · exact .fault _
    · cases h; exact .popGlobal floor o v rfl hf hd ho
  · exact .fault _

theorem execPrint_effect (h : execPrint s = .next t) : s.Effect .print t := by
  obtain ⟨floor, hf, ⟨-, rfl⟩ | ⟨hd, v, hv, h⟩⟩ := State.pop_eq_next.1 h
  · exact .fault _
  · cases h; exact .popEmit floor v rfl hf hd hv

theorem execPop_effect (h : execPop s = .next t) : s.Effect .pop t := by
  obtain ⟨floor, hf, ⟨-, rfl⟩ | ⟨hd, h⟩⟩ := State.needDepth_eq_next.1 h
  · exact .fault _
  · cases h; exact .pop floor hf hd

theorem operandIndex_cast {o : Word} (h : 0 ≤ s32 o) : (operandIndex o : Int) = s32 o := Int.toNat_of_nonneg h

theorem execCall_effect {target nargs : Word} (h : execCall target nargs s = .next t) :
    s.Effect (.call target nargs) t := by
  obtain ⟨hn, floor, hf, ⟨-, rfl⟩ | ⟨hd, ⟨-, rfl⟩ | ⟨-, ⟨hv, hk, args, ha, rfl⟩ | ⟨-, rfl⟩⟩⟩⟩ | ⟨-, rfl⟩ :=
    execCall_eq_next.1 h
  · exact .fault _
  · exact .fault _
  · have hl := (State.topWords?_eq_some ha).1
    rw [State.validNargs_iff] at hn
    have hc := operandIndex_cast hn.1
    refine .call floor args target nargs rfl ?_ hf ?_ ?_ (hl ▸ ha) hv hk <;> omega
  · exact .fault _
  · exact .fault _

theorem execRet_effect (h : execRet s = .next t) : s.Effect .ret t := by
  obtain ⟨-, rfl⟩ | ⟨hfp, r, hr, ⟨hd, hs, v, hv, rfl⟩ | ⟨hd, rfl⟩⟩ := execRet_eq_next.1 h
  · exact .fault _
  · exact .retValue r v rfl hfp hr hd hs hv
  · exact .ret r rfl hfp hr hd

/-- Every next state of an instruction has one of the shapes of `State.Effect`. -/
theorem exec_effect {i : Instr} (h : exec i s = .next t) : s.Effect i t := by
  cases i with
  | iadd => exact aluStep_effect h
  | isub => exact aluStep_effect h
  | imul => exact aluStep_effect h
  | ilt => exact aluStep_effect h
  | ieq => exact aluStep_effect h
  | br target => exact execBr_effect h
  | brt target => exact branchIf_effect h
  | brf target => exact branchIf_effect h
  | iconst imm => exact push_effect h
  | load offset => exact execLoad_effect h
  | gload index => exact execGload_effect h
  | store offset => exact execStore_effect h
  | gstore index => exact execGstore_effect h
  | print => exact execPrint_effect h
  | pop => exact execPop_effect h
  | call target nargs => exact execCall_effect h
  | ret => exact execRet_effect h
  | halt => cases h; exact .halt rfl

/-! ### The step -/

/-- What Fetch and Decode of a running engine end in when the step is over with them. -/
theorem fetchRunning_done {r : Result} (h : s.fetchRunning = .done r) :
    (s.ip = s.codeLen ∧ r = .next s.halt) ∨
      (s.codeLen < s.ip ∧ r = .next ((s.setCur s.ip).faulted .programBoundsError)) ∨
      (s.ip < s.codeLen ∧ ∃ e, decode (s.code.drop s.ip) = .rejected e ∧
        r = .next ((s.setCur s.ip).faulted (decodeFaultKind e))) := by
  unfold State.fetchRunning at h
  split_ifs at h with h1 h2
  · cases h; exact .inl ⟨h1, rfl⟩
  · cases h; exact .inr (.inl ⟨h2, rfl⟩)
  · split at h
    · rename_i e he
      cases h; exact .inr (.inr ⟨by omega, e, he, rfl⟩)
    · cases h

/-- What Decode completing means. -/
theorem fetchRunning_dispatch {i : Instr} {s' : State} (h : s.fetchRunning = .dispatch i s') :
    s.ip < s.codeLen ∧ (∃ rest, decode (s.code.drop s.ip) = .ok i rest) ∧ s' = s.decoded i := by
  unfold State.fetchRunning at h
  split_ifs at h with h1 h2
  split at h
  · cases h
  · rename_i i' rest hd
    cases h; exact ⟨by omega, ⟨rest, hd⟩, rfl⟩

theorem fetch_running (h : s.runState = .running) : s.fetch = s.fetchRunning := by simp [State.fetch, h]

/-- A step that answers a next state is an implicit halt, a fetch or decode fault, or the decoded instruction. -/
theorem step_eq_next (h : step s = .next t) :
    s.runState = .running ∧
      ((s.ip = s.codeLen ∧ t = s.halt) ∨
       (s.codeLen < s.ip ∧ t = (s.setCur s.ip).faulted .programBoundsError) ∨
       (s.ip < s.codeLen ∧ ∃ e, decode (s.code.drop s.ip) = .rejected e ∧
         t = (s.setCur s.ip).faulted (decodeFaultKind e)) ∨
       (s.ip < s.codeLen ∧ ∃ i rest, decode (s.code.drop s.ip) = .ok i rest ∧ exec i (s.decoded i) = .next t)) := by
  have hr : s.runState = .running := by
    cases hr : s.runState <;> simp [step, State.fetch, hr] at h ⊢
  refine ⟨hr, ?_⟩
  unfold step at h
  rw [fetch_running hr] at h
  cases hf : s.fetchRunning with
  | done r =>
    rw [hf] at h
    obtain ⟨h1, rfl⟩ | ⟨h1, rfl⟩ | ⟨h1, e, he, rfl⟩ := fetchRunning_done hf
    · cases h; exact .inl ⟨h1, rfl⟩
    · cases h; exact .inr (.inl ⟨h1, rfl⟩)
    · cases h; exact .inr (.inr (.inl ⟨h1, e, he, rfl⟩))
  | dispatch i s' =>
    rw [hf] at h
    obtain ⟨h1, ⟨rest, hd⟩, rfl⟩ := fetchRunning_dispatch hf
    exact .inr (.inr (.inr ⟨h1, i, rest, hd, h⟩))

end Sys2Proof.Machine
end

