-- ==== Sys2Proof/Laws/PerInstr.lean ====
section
/-!
SUPPORT. Statements made per instruction. `RoundTrip`: decoding the words of an instruction gives it back, with every
operand at every value, and leaves the words after it (spec/30_encoding.md rules R70, R71, R73, R76, R84).
-/

namespace Sys2Proof.Laws.RoundTrip

/-- The words of the instruction decode to it, whatever follows. -/
def Statement (i : Instr) : Prop := ∀ rest, decode (encode i ++ rest) = .ok i rest

theorem iadd : Statement .iadd := fun _ => rfl
theorem isub : Statement .isub := fun _ => rfl
theorem imul : Statement .imul := fun _ => rfl
theorem ilt : Statement .ilt := fun _ => rfl
theorem ieq : Statement .ieq := fun _ => rfl
theorem br (target : Word) : Statement (.br target) := fun _ => rfl
theorem brt (target : Word) : Statement (.brt target) := fun _ => rfl
theorem brf (target : Word) : Statement (.brf target) := fun _ => rfl
theorem iconst (imm : Word) : Statement (.iconst imm) := fun _ => rfl
theorem load (offset : Word) : Statement (.load offset) := fun _ => rfl
theorem gload (index : Word) : Statement (.gload index) := fun _ => rfl
theorem store (offset : Word) : Statement (.store offset) := fun _ => rfl
theorem gstore (index : Word) : Statement (.gstore index) := fun _ => rfl
theorem print : Statement .print := fun _ => rfl
theorem pop : Statement .pop := fun _ => rfl
theorem call (target nargs : Word) : Statement (.call target nargs) := fun _ => rfl
theorem ret : Statement .ret := fun _ => rfl
theorem halt : Statement .halt := fun _ => rfl

end Sys2Proof.Laws.RoundTrip
end

