-- ==== Sys2Proof/Tests/Slice0.lean ====
section
/-!
SUPPORT. The model's own tests: words written out from the opcode map (spec/30_encoding.md rule R84), single steps whose
results are those of spec/95_test_vectors.md (the vector is named at each, fitted to the test's state), the refusals of
WellFormed, and one witness for the hypotheses of each obligation.
-/

namespace Sys2Proof.Tests

open Sys2Proof.Machine

/-- What a result's next state shows, if there is one. -/
def next? {β : Type} (f : State → β) (r : Result) : Option β :=
  match r with
  | .next t => some (f t)
  | .fault _ => none
  | .refused _ => none

/-- STATUS as the vectors write it. -/
def status (t : State) : RunState × Option FaultKind × Word := (t.runState, t.faultKind, t.faultOffset)

/-- `S[0 .. sp]`, `ip`, `fp` as the vectors write them. -/
def shown (t : State) : List Word × Nat × Int := (t.stackWords, t.ip, t.fp)

/-- A run of `code` just started at `entry`. -/
def begun (code : List Word) (entry gCap : Nat) : State := State.reset.started code entry gCap false

/-- A Running engine at top level with the stack `ws`, in the instruction at 10 of a program of 23 words, G = [0, 55].
-/
def top (ws : List Word) : State :=
  { begun (List.replicate 23 0) 0 2 with
    cur := 10, ip := 12, sp := (ws.length : Int) - 1, stack := Memory.writeList [] 0 ws, globals := [(1, 55)] }

/-- The same in a callee whose frame was entered with the stack level `saved`, from a CALL before 20; L = [0, 42]. -/
def callee (saved : Int) (ws : List Word) : State :=
  { top ws with fp := 0, frames := [(0, { retIp := 20, savedFp := -1, savedSp := saved, locals := [(1, 42)] })] }

/-! ### Decoding: words written out from R84 and R71 -/

theorem test_decode_iadd : decode [0b00000000000000000000000000000001, 7] = .ok .iadd [7] := by decide
theorem test_decode_isub : decode [0b00000000000000000000000000000010] = .ok .isub [] := by decide
theorem test_decode_imul : decode [0b00000000000000000000000000000011] = .ok .imul [] := by decide
theorem test_decode_ilt : decode [0b00000000000000000000000000000100] = .ok .ilt [] := by decide
theorem test_decode_ieq : decode [0b00000000000000000000000000000101] = .ok .ieq [] := by decide
theorem test_decode_br : decode [0b00000000000000000000000000000110, 0xFFFFFFFF] = .ok (.br (-1)) [] := by decide
theorem test_decode_brt : decode [0b00000000000000000000000000000111, 99, 9] = .ok (.brt 99) [9] := by decide
theorem test_decode_brf : decode [0b00000000000000000000000000001000, 4] = .ok (.brf 4) [] := by decide
theorem test_decode_iconst : decode [0b00000000000000000000000000001001, 0x80000000] = .ok (.iconst 0x80000000) [] := by
  decide
theorem test_decode_load : decode [0b00000000000000000000000000001010, 3] = .ok (.load 3) [] := by decide
theorem test_decode_gload : decode [0b00000000000000000000000000001011, 2] = .ok (.gload 2) [] := by decide
theorem test_decode_store : decode [0b00000000000000000000000000001100, 1] = .ok (.store 1) [] := by decide
theorem test_decode_gstore : decode [0b00000000000000000000000000001101, 0] = .ok (.gstore 0) [] := by decide
theorem test_decode_print : decode [0b00000000000000000000000000001110] = .ok .print [] := by decide
theorem test_decode_pop : decode [0b00000000000000000000000000001111] = .ok .pop [] := by decide
theorem test_decode_call : decode [0b00000000000000000000000000010000, 9, 2, 18] = .ok (.call 9 2) [18] := by decide
theorem test_decode_ret : decode [0b00000000000000000000000000010001] = .ok .ret [] := by decide
theorem test_decode_halt : decode [0b00000000000000000000000000010010] = .ok .halt [] := by decide

/-- No value of the opcode map is listed twice and no opcode is. -/
theorem test_opcode_table : (opcodeTable.map Prod.fst).Nodup ∧ (opcodeTable.map Prod.snd).Nodup := by decide

/-- Vectors D1 to D5, D6 and D8: unknown opcode words, and operand words that are not there. -/
theorem test_decode_rejects :
    [[0], [19], [0xFFFFFFFF], [0x109], [0x80000001]].map decode = List.replicate 5 (.rejected .unknownOpcode) ∧
      [[9], [16, 0], [16]].map decode = List.replicate 3 (.rejected .truncated) ∧
      decode [] = .rejected .noWord := by decide

/-- The opcode table's numbering: the first word is bits 31..0, and bits the table gives no operand are 0. -/
theorem test_table_word :
    decodeTableWord 96 0x000000020000000500000010 = some (.call 5 2) ∧ decodeTableWord 32 16 = some (.call 0 0) ∧
      decodeTableWord 64 0xFFFFFFFF00000006 = some (.br (-1)) ∧ decodeTableWord 32 19 = none := by decide

/-- The four bytes of the word 0x00000109 in both orders. -/
theorem test_loader :
    bytesOfWord .little 0x109 = [9, 1, 0, 0] ∧ bytesOfWord .big 0x109 = [0, 0, 1, 9] ∧
      wordsOfBytes .big [0, 0, 0, 18, 0, 0, 1, 9] = some [18, 0x109] ∧
      wordsOfBytes .little [18, 0, 0, 0, 9] = none := by decide

/-! ### WellFormed refuses -/

/-- The bounds of the refusals below. -/
def bounds : Bounds := { codeLen := 20, gCap := 2, frameLocals := 4 }

theorem test_wf_branch_target :
    (Instr.br 20).wellFormed bounds = true ∧ (Instr.br 21).wellFormed bounds = false ∧
      (Instr.brt (-1)).wellFormed bounds = false ∧ (Instr.brf 21).wellFormed bounds = false := by decide

theorem test_wf_local_offset :
    (Instr.load 3).wellFormed bounds = true ∧ (Instr.load 4).wellFormed bounds = false ∧
      (Instr.store (-1)).wellFormed bounds = false := by decide

theorem test_wf_global_index :
    (Instr.gload 1).wellFormed bounds = true ∧ (Instr.gload 2).wellFormed bounds = false ∧
      (Instr.gstore (-1)).wellFormed bounds = false := by decide

theorem test_wf_call :
    (Instr.call 20 4).wellFormed bounds = true ∧ (Instr.call 21 0).wellFormed bounds = false ∧
      (Instr.call 0 5).wellFormed bounds = false ∧ (Instr.call 0 (-1)).wellFormed bounds = false := by decide

/-- A target in an operand word, and a CALL that ends the program, break the first obligation of R226. -/
theorem test_wf_program :
    programWellFormed bounds [.br 2, .halt] = true ∧ programWellFormed bounds [.br 1, .halt] = false ∧
      programWellFormed bounds [.call 0 0] = false ∧ programWellFormed bounds [.gload 2] = false := by decide

/-! ### ALU -/

/-- Vectors A2 and A23. -/
theorem test_iadd :
    next? shown (exec .iadd (top [0x7FFFFFFF, 1])) = some ([0x80000000], 12, -1) ∧
      next? status (exec .iadd (top [1])) = some (.faulted, some .stackUnderflow, 10) := by decide

/-- Vectors A6 and A7. -/
theorem test_isub :
    next? shown (exec .isub (top [2, 5])) = some ([-3], 12, -1) ∧
      next? shown (exec .isub (top [0x80000000, 1])) = some ([0x7FFFFFFF], 12, -1) := by decide

/-- Vectors A11 and A12. -/
theorem test_imul :
    next? shown (exec .imul (top [0x7FFFFFFF, 2])) = some ([-2], 12, -1) ∧
      next? shown (exec .imul (top [-1, 0x80000000])) = some ([0x80000000], 12, -1) := by decide

/-- Vectors A16, A17 and A18. -/
theorem test_ilt :
    next? shown (exec .ilt (top [2, 2])) = some ([0], 12, -1) ∧
      next? shown (exec .ilt (top [-1, 0])) = some ([1], 12, -1) ∧
      next? shown (exec .ilt (top [0x7FFFFFFF, 0x80000000])) = some ([0], 12, -1) := by decide

/-- Vectors A21 and A22. -/
theorem test_ieq :
    next? shown (exec .ieq (top [5, 6])) = some ([0], 12, -1) ∧
      next? shown (exec .ieq (top [0xFFFFFFFF, -1])) = some ([1], 12, -1) := by decide

/-- Vector A25: the callee may not take the caller's words. -/
theorem test_alu_floor :
    next? (fun t => (status t, shown t)) (exec .iadd (callee 1 [1, 2, 3])) =
      some ((.faulted, some .stackUnderflow, 10), [1, 2, 3], 10, 0) := by decide

/-! ### Branches -/

/-- Vectors B2, B3 and B4: the target CODE_LEN is legal, and one below 0 or beyond it is not. -/
theorem test_br :
    next? shown (exec (.br 23) (top [])) = some ([], 23, -1) ∧
      next? status (exec (.br (-1)) (top [])) = some (.faulted, some .programBoundsError, 10) ∧
      next? status (exec (.br 24) (top [])) = some (.faulted, some .programBoundsError, 10) := by decide

/-- Vectors B5, B6 and B7. -/
theorem test_brt :
    next? shown (exec (.brt 7) (top [-1])) = some ([], 7, -1) ∧
      next? shown (exec (.brt 99) (top [0])) = some ([], 12, -1) ∧
      next? shown (exec (.brt 99) (top [1])) = some ([1], 10, -1) := by decide

/-- Vectors B9, B10 and B12. -/
theorem test_brf :
    next? shown (exec (.brf 4) (top [0])) = some ([], 4, -1) ∧
      next? shown (exec (.brf (-1)) (top [5])) = some ([], 12, -1) ∧
      next? status (exec (.brf 0) (top [])) = some (.faulted, some .stackUnderflow, 10) := by decide

/-! ### Storage -/

/-- Vectors S1 and S3. -/
theorem test_iconst :
    next? shown (exec (.iconst (-7)) (top [])) = some ([-7], 12, -1) ∧
      next? status (exec (.iconst 3) { top [1, 2] with params := { Params.default with stackCap := 2 } }) =
        some (.faulted, some .stackOverflow, 10) := by decide

/-- Vectors S4, S5 and S6. -/
theorem test_load :
    next? status (exec (.load 0) (top [])) = some (.faulted, some .invalidLocalOffset, 10) ∧
      next? shown (exec (.load 3) (callee (-1) [])) = some ([0], 12, 0) ∧
      next? status (exec (.load 4) (callee (-1) [])) = some (.faulted, some .invalidLocalOffset, 10) := by decide

/-- Vectors S9, S10 and S12. -/
theorem test_gload :
    next? status (exec (.gload 2) (top [])) = some (.faulted, some .invalidGlobalIndex, 10) ∧
      next? status (exec (.gload (-1)) (top [])) = some (.faulted, some .invalidGlobalIndex, 10) ∧
      next? shown (exec (.gload 0) (top [])) = some ([0], 12, -1) ∧
      next? shown (exec (.gload 1) (top [])) = some ([55], 12, -1) := by decide

/-- Vectors S13, S14 and S15. -/
theorem test_store :
    next? status (exec (.store 0) (top [])) = some (.faulted, some .invalidLocalOffset, 10) ∧
      next? (fun t => (shown t, (t.frame? 0).map (fun r => r.locals.toWords 4))) (exec (.store 2) (callee (-1) [6])) =
        some (([], 12, 0), some [0, 42, 6, 0]) ∧
      next? status (exec (.store 0) (callee 0 [1])) = some (.faulted, some .stackUnderflow, 10) := by decide

/-- Vectors S16, S17 and S18; storing 0 lists nothing. -/
theorem test_gstore :
    next? status (exec (.gstore 0) (top [])) = some (.faulted, some .stackUnderflow, 10) ∧
      next? status (exec (.gstore 2) (top [])) = some (.faulted, some .invalidGlobalIndex, 10) ∧
      next? State.globalWords (exec (.gstore 1) (top [2])) = some [0, 2] ∧
      next? (·.globals) (exec (.gstore 1) (top [0])) = some [] := by decide

/-! ### Output and stack -/

/-- Vectors O5 and O6. -/
theorem test_print :
    next? (fun t => (t.out, shown t)) (exec .print (top [1, 2])) = some ([2], [1], 12, -1) ∧
      next? (fun t => (t.out, status t)) (exec .print (callee 0 [1])) =
        some ([], .faulted, some .stackUnderflow, 10) := by decide

/-- Vectors O3 and O4; the slot POP leaves keeps its word (R152). -/
theorem test_pop :
    next? (fun t => (shown t, t.slot? 1)) (exec .pop (top [1, 2])) = some (([1], 12, -1), some 2) ∧
      next? status (exec .pop (top [])) = some (.faulted, some .stackUnderflow, 10) := by decide

/-! ### Call, return, halt -/

/-- The example of R160, and vector C2: arguments in push order, the other locals 0. -/
theorem test_call :
    next? (fun t => (shown t, t.frame? 0)) (exec (.call 0 2) { top [7, 8] with cur := 20, ip := 23 }) =
      some (([], 0, 0), some { retIp := 23, savedFp := -1, savedSp := -1, locals := [(0, 7), (1, 8)] }) ∧
      next? (fun t => (shown t, (t.frame? 1).map (fun r => (r.savedFp, r.savedSp, r.locals.toWords 4))))
        (exec (.call 10 3) (callee 0 [1, 10, 20, 30])) =
        some (([1], 10, 1), some (0, 0, [10, 20, 30, 0])) := by decide

/-- Vectors C4, C6, C7, C9 and C16: which fault is reported. -/
theorem test_call_faults :
    next? (·.faultKind) (exec (.call 0 5) (top [1, 2, 3, 4, 5])) = some (some .invalidLocalOffset) ∧
      next? (·.faultKind) (exec (.call 0 2) (top [1])) = some (some .stackUnderflow) ∧
      next? (·.faultKind) (exec (.call 24 0) (top [])) = some (some .programBoundsError) ∧
      next? (·.faultKind) (exec (.call 99 9) (top [])) = some (some .invalidLocalOffset) ∧
      next? (·.faultKind) (exec (.call 99 0) { callee (-1) [] with
        params := { Params.default with maxFrames := 1 } }) = some (some .stackOverflow) := by decide

/-- Program P5 and vectors C12 and C10: the callee's top word returned, no word returned, no frame to leave. -/
theorem test_ret :
    next? (fun t => (shown t, t.frame? 0)) (exec .ret (callee 1 [1, 2, 100, 200, 300])) =
      some (([1, 2, 300], 20, -1), none) ∧
      next? shown (exec .ret (callee 0 [1])) = some ([1], 20, -1) ∧
      next? status (exec .ret (top [1])) = some (.faulted, some .unbalancedReturn, 10) := by decide

/-- Vectors C14 and H2. -/
theorem test_halt :
    next? (fun t => (status t, shown t)) (exec .halt (callee (-1) [5])) =
      some ((.halted, none, 0), [5], 12, 0) := by decide

/-! ### Steps -/

/-- Vectors D1, D6 and D7: faults of decode, at the instruction, with the stack as it was. -/
theorem test_step_decode_faults :
    next? status (step (begun [0] 0 0)) = some (.faulted, some .unknownOpcode, 0) ∧
      next? status (step (begun [9] 0 0)) = some (.faulted, some .programBoundsError, 0) ∧
      next? (fun t => (status t, t.ip)) (step { begun [9, 1, 6] 0 0 with ip := 2 }) =
        some ((.faulted, some .programBoundsError, 2), 2) := by decide

/-- Vectors D10, D11 and D12: the entry past the end, at the end, and the empty program. -/
theorem test_step_entry :
    next? status (step (begun [18] 2 0)) = some (.faulted, some .programBoundsError, 2) ∧
      next? status (step (begun [18] 1 0)) = some (.halted, none, 0) ∧
      next? status (step (begun [] 0 0)) = some (.halted, none, 0) := by decide

/-- Vectors D13 and H1: an operand word decodes as an opcode; HALT leaves `ip` past itself. -/
theorem test_step_halt :
    next? (fun t => (status t, t.ip)) (step { begun [6, 3, 9, 18, 9, 1, 14, 18] 0 0 with ip := 3 }) =
      some ((.halted, none, 0), 4) := by decide

/-- The third trace record of spec/95_test_vectors.md section 2.8. -/
theorem test_step_trace :
    next? (·.trace) (step { begun [9, 1, 9, 2, 1, 14, 18] 0 0 with
        ip := 4, sp := 1, stack := [(0, 1), (1, 2)], traceOn := true }) =
      some [{ cur := 4, opcode := .iadd, operands := [], sp := 1, stack := [1, 2], globals := [] }] := by decide

/-- Vector V1, and the fields of STATUS (R41). -/
theorem test_status :
    State.reset.statusPort = 0 ∧ (begun [] 0 0).statusPort = 1 ∧
      next? State.statusPort (step (begun [0] 0 0)) = some 0b00111 ∧
      next? State.statusPort (step (begun [18] 2 0)) = some 0b11111 := by decide

/-- Vector V2: the start is refused. -/
theorem test_start_refused :
    next? (·.ip) ({ State.reset with params := { Params.default with codeMax := 4 } }.start [1, 1, 1, 1, 1] 0 0 true) =
        none ∧
      next? (·.ip) (State.reset.start [] 0 65537 true) = none := by decide

/-- Vectors V3 and V4: the start values of R46, after a faulted run. -/
theorem test_start :
    next? (fun t => (shown t, t.globalWords, t.out))
        ({ top [3] with out := [7] }.faulted .stackOverflow |>.start [18] 0 2 false) = some (([], 0, -1), [0, 0], []) ∧
      next? status ({ top [3] with out := [7] }.faulted .stackOverflow |>.start [18] 0 2 false) =
        some (.running, none, 0) := by decide

/-- The words the host stores are the ones the next step fetches, as the first instruction after reset. -/
theorem test_with_fetch_word :
    next? shown (step (State.reset.withFetchWord 64 0x0000000700000009)) = some ([7], 2, -1) ∧
      next? status (step (State.reset.withFetchWord 32 18)) = some (.halted, none, 0) ∧
      next? (fun t => (t.fp, t.ip)) (step (State.reset.withFetchWord 32 16)) = some (0, 0) := by decide

/-- The memory at reset is in canonical form. -/
theorem test_reset_memory :
    State.reset.stack.wf ∧ State.reset.globals.wf ∧ CellsSorted State.reset.frames := by decide

/-! ### Witnesses: for each obligation a state and operands that meet its hypotheses, every clause at a boundary -/

/-- `UnknownOpcodeWordFaults`: the word 0, the first beyond 18, the most negative. -/
theorem test_witness_unknown_opcode :
    (begun [0, 19, 0x80000000] 0 0).runState = .running ∧ (begun [0, 19, 0x80000000] 0 0).codeAt? 0 = some 0 ∧
      s32 0 < 1 ∧ (begun [0, 19, 0x80000000] 1 0).codeAt? 1 = some 19 ∧ 18 < s32 19 ∧
      (begun [0, 19, 0x80000000] 2 0).codeAt? 2 = some 0x80000000 ∧ s32 0x80000000 < 1 := by decide

/-- `TruncatedInstructionFaults`: an ICONST and a CALL, each one word short. -/
theorem test_witness_truncated :
    (begun [9] 0 0).ip < (begun [9] 0 0).codeLen ∧ (begun [9] 0 0).codeAt? 0 = (encode (.iconst 0)).head? ∧
      (begun [9] 0 0).codeLen < 0 + (Instr.iconst 0).size ∧
      (begun [16, 0] 0 0).codeAt? 0 = (encode (.call 0 0)).head? ∧
      (begun [16, 0] 0 0).codeLen < 0 + (Instr.call 0 0).size := by decide

/-- `StepRunsTheDecodedInstruction` and `TraceRecordShowsTheDecodedState`, without and with TRACE. -/
theorem test_witness_decoded :
    ∀ trace, let s := State.reset.started [16, 0, 2] 0 2 trace
      s.runState = .running ∧ s.ip < s.codeLen ∧ decode (s.code.drop s.ip) = .ok (.call 0 2) [] ∧
        s.traceOn = trace := by decide

/-- `FetchAtTheEndHalts` and `FetchPastTheEndFaults`: ENTRY at the end and one past it. -/
theorem test_witness_fetch_end :
    (begun [18] 1 0).runState = .running ∧ (begun [18] 1 0).ip = (begun [18] 1 0).codeLen ∧
      (begun [18] 2 0).runState = .running ∧ (begun [18] 2 0).codeLen < (begun [18] 2 0).ip := by decide

/-- `NoStepUnlessRunning`: one state for each run state. -/
theorem test_witness_run_states :
    State.reset.runState = .idle ∧ (begun [] 0 0).runState = .running ∧ (begun [] 0 0).halt.runState = .halted ∧
      ((begun [] 0 0).faulted .unknownOpcode).runState = .faulted := by decide

/-- `StartSetsTheRunState`: both bounds just kept, and each just broken. -/
theorem test_witness_start :
    (let s := { State.reset with params := { Params.default with codeMax := 1, gMax := 2 } }
     (s.startAccepted [18] 2 = true ∧ ¬(s.params.codeMax < [(18 : Word)].length ∨ s.params.gMax < 2)) ∧
       (s.startAccepted [18, 18] 2 = false ∧ s.params.codeMax < [(18 : Word), 18].length) ∧
       s.startAccepted [18] 3 = false ∧ s.params.gMax < 3) := by decide

/-- `EntryIsCheckedAtTheFirstFetch`: a start with ENTRY at the end and past it, at a word that decodes, and at one
that does not. -/
theorem test_witness_entry :
    (∃ t, State.reset.start [18] 1 0 false = .next t ∧ 1 = [(18 : Word)].length) ∧
      (∃ t, State.reset.start [18] 2 0 false = .next t ∧ [(18 : Word)].length < 2) ∧
      (∃ t, State.reset.start [9, 18] 1 0 false = .next t ∧ 1 < [(9 : Word), 18].length ∧
        decode ([9, 18].drop 1) = .ok .halt []) ∧
      ∃ t, State.reset.start [18, 9] 1 0 false = .next t ∧ decode ([18, 9].drop 1) = .rejected .truncated :=
  ⟨⟨_, rfl, rfl⟩, ⟨_, rfl, by decide⟩, ⟨_, rfl, by decide, by decide⟩, _, rfl, by decide⟩

/-- `FaultEntryRecordsKindAndOffset`, `FaultingInstructionWritesNothing` and `EachInstructionRaisesItsKinds`: POP on
an empty stack. -/
theorem test_witness_fault :
    ∃ t, exec .pop (top []) = .next t ∧ (top []).runState ≠ .faulted ∧ t.runState = .faulted ∧
      (top []).cur < 2 ^ 32 ∧ (top []).faultKind = none ∧ t.faultKind = some .stackUnderflow :=
  ⟨_, rfl, by decide, rfl, by decide, rfl, rfl⟩

/-- `ArithmeticLeavesTheWrappedResult` and `ComparisonLeavesOneOrZero`: depth 1 and depth 2, in a callee. -/
theorem test_witness_alu :
    (callee 1 [1, 2, 3]).floor? = some 1 ∧ (callee 1 [1, 2, 3]).sp - 1 < 2 ∧
      (callee 0 [1, 2, 3]).floor? = some 0 ∧ 2 ≤ (callee 0 [1, 2, 3]).sp - 0 ∧
      (callee 0 [1, 2, 3]).slot? 1 = some 2 ∧ (callee 0 [1, 2, 3]).slot? (callee 0 [1, 2, 3]).sp = some 3 := by decide

/-- `BrGoesToTheTarget`: the last target, and the first beyond it; `top` has 23 words. -/
theorem test_witness_br :
    (0 ≤ s32 0 ∧ s32 0 ≤ (top []).codeLen) ∧ (0 ≤ s32 23 ∧ s32 23 ≤ (top []).codeLen) ∧
      ¬(0 ≤ s32 24 ∧ s32 24 ≤ (top []).codeLen) ∧ ¬(0 ≤ s32 (-1) ∧ s32 (-1) ≤ (top []).codeLen) := by decide

/-- `BrtBranchesOnNonzero`, `BrfBranchesOnZero` and `ExactlyOneOfBrtAndBrfIsTaken`: no condition, and each of 0 and
the most negative word as the condition. -/
theorem test_witness_brt_brf :
    (top []).floor? = some (-1) ∧ (top []).sp - -1 < 1 ∧
      (top [0]).floor? = some (-1) ∧ 1 ≤ (top [0]).sp - -1 ∧ (top [0]).slot? (top [0]).sp = some 0 ∧
      (top [0x80000000]).slot? (top [0x80000000]).sp = some 0x80000000 ∧
      (0 ≤ s32 23 ∧ s32 23 ≤ (top [0]).codeLen) ∧ ¬(0 ≤ s32 24 ∧ s32 24 ≤ (top [0]).codeLen) := by decide

/-- `BranchToItselfNeverEnds`: vector B13. -/
theorem test_witness_br_self :
    (begun [6, 0] 0 0).runState = .running ∧ (begun [6, 0] 0 0).codeAt? 0 = some 6 ∧
      (begun [6, 0] 0 0).codeAt? (0 + 1) = some 0 ∧ s32 0 = (begun [6, 0] 0 0).ip := by decide

/-- The stack `top` leaves two slots. -/
def tight (ws : List Word) : State := { callee (-1) ws with params := { Params.default with stackCap := 2 } }

/-- `IconstPushesItsOperand`, `LoadPushesTheLocal` and `GloadPushesTheGlobal`: no room, and one slot left; the first
and the last offset and index, and the first beyond each. -/
theorem test_witness_push :
    (tight [1, 2]).sp = (tight [1, 2]).params.stackCap - 1 ∧ -1 ≤ (tight [1]).sp ∧
      (tight [1]).sp < (tight [1]).params.stackCap - 1 ∧ (tight [1]).fp ≠ -1 ∧
      (tight [1]).frame? (tight [1]).fp =
        some { retIp := 20, savedFp := -1, savedSp := -1, locals := [(1, 42)] } ∧
      s32 3 = (3 : Nat) ∧ 3 < (tight [1]).params.frameLocals ∧ (tight [1]).params.frameLocals ≤ s32 4 ∧
      (1 < (tight [1]).gCap) ∧ (tight [1]).gCap ≤ s32 2 ∧ (top []).fp = -1 := by decide

/-- `StorePopsIntoTheLocal` and `GstorePopsIntoTheGlobal`: nothing to pop, and one word. -/
theorem test_witness_store :
    (callee 0 [1]).frame? 0 = some { retIp := 20, savedFp := -1, savedSp := 0, locals := [(1, 42)] } ∧
      (callee 0 [1]).sp - 0 < 1 ∧ 1 ≤ (callee 0 [1, 2]).sp - 0 ∧
      (callee 0 [1, 2]).slot? (callee 0 [1, 2]).sp = some 2 ∧ (callee 0 [1, 2]).floor? = some 0 ∧
      1 < (callee 0 [1, 2]).gCap ∧ 3 < (callee 0 [1, 2]).params.frameLocals := by decide

/-- `StoreThenLoadReturnsTheWord` and `GstoreThenGloadReturnsTheWord`. -/
theorem test_witness_store_load :
    (∃ t, exec (.store 3) (callee 0 [1, 2]) = .next t ∧ t.runState = .running) ∧
      (∃ t, exec (.gstore 1) (callee 0 [1, 2]) = .next t ∧ t.runState = .running) ∧
      (callee 0 [1, 2]).slot? (callee 0 [1, 2]).sp = some 2 ∧ (callee 0 [1, 2]).runState = .running :=
  ⟨⟨_, rfl, rfl⟩, ⟨_, rfl, rfl⟩, by decide, rfl⟩

/-- `PrintEmitsThePoppedWord` and `PopDiscardsTheTop`: depth 0 and depth 1, in a callee. -/
theorem test_witness_pop :
    (callee 0 [1]).floor? = some 0 ∧ (callee 0 [1]).sp - 0 < 1 ∧ (callee 0 [1, 2]).floor? = some 0 ∧
      1 ≤ (callee 0 [1, 2]).sp - 0 ∧ (callee 0 [1, 2]).slot? (callee 0 [1, 2]).sp = some 2 := by decide

/-- `CallEntersANewFrame`: the count just out of range on each side; then, with the largest count, a word too few, the
last frame taken, a bad target, and all in order. -/
theorem test_witness_call :
    (s32 (-1) < 0 ∧ ((top []).params.frameLocals : Int) < s32 5) ∧
      (s32 4 = (4 : Nat) ∧ 4 ≤ (top []).params.frameLocals) ∧
      ((callee 0 [1, 2, 3, 4]).floor? = some 0 ∧ (callee 0 [1, 2, 3, 4]).sp - 0 < 4) ∧
      (callee 0 [1, 2, 3, 4, 5]).floor? = some 0 ∧ 4 ≤ (callee 0 [1, 2, 3, 4, 5]).sp - 0 ∧
      4 ≤ (callee 0 [1, 2, 3, 4, 5]).sp + 1 ∧
      (callee 0 [1, 2, 3, 4, 5]).sp < (callee 0 [1, 2, 3, 4, 5]).params.stackCap ∧
      -1 ≤ (callee 0 [1, 2, 3, 4, 5]).fp ∧
      (callee 0 [1, 2, 3, 4, 5]).fp < (callee 0 [1, 2, 3, 4, 5]).params.maxFrames - 1 ∧
      (0 ≤ s32 23 ∧ s32 23 ≤ (callee 0 [1, 2, 3, 4, 5]).codeLen) ∧
      ¬(0 ≤ s32 24 ∧ s32 24 ≤ (callee 0 [1, 2, 3, 4, 5]).codeLen) ∧
      (let s := { callee 0 [1] with params := { Params.default with maxFrames := 1 } }
       s.fp = (s.params.maxFrames : Int) - 1) := by decide

/-- `RetRestoresTheCaller`: no frame; a frame with one word of its own, and with none. -/
theorem test_witness_ret :
    (top []).fp = -1 ∧ (callee 0 [1, 2]).fp ≠ -1 ∧
      (callee 0 [1, 2]).frame? 0 = some { retIp := 20, savedFp := -1, savedSp := 0, locals := [(1, 42)] } ∧
      0 < (callee 0 [1, 2]).sp ∧ (callee 0 [1, 2]).slot? (callee 0 [1, 2]).sp = some 2 ∧ (-1 : Int) ≤ 0 ∧
      (callee 0 [1]).sp ≤ 0 := by decide

/-- `HaltEndsTheRun`, its clause about a step. -/
theorem test_witness_halt :
    (begun [18] 0 0).runState = .running ∧ (begun [18] 0 0).codeAt? 0 = some 18 := by decide

/-- `ReturnMatchesItsCall`: a CALL of one argument to an ICONST and a RET. -/
theorem test_witness_call_ret :
    let s := { begun [16, 3, 1, 9, 300, 17] 0 0 with sp := 0, stack := [(0, 7)] }
    ∃ t u v, s.runState = .running ∧ s.ip < s.codeLen ∧
      decode (s.code.drop s.ip) = .ok (.call 3 1) [9, 300, 17] ∧ step s = .next t ∧ t.runState = .running ∧
      State.RunsAbove (s.fp + 1) 1 t u ∧ u.fp = s.fp + 1 ∧ u.runState = .running ∧ u.ip < u.codeLen ∧
      decode (u.code.drop u.ip) = .ok .ret [] ∧ step u = .next v :=
  ⟨_, _, _, rfl, by decide, by decide, rfl, rfl, .next 0 _ _ _ (by decide) rfl (.refl _ (by decide)), by decide, rfl,
    by decide, by decide, rfl⟩

/-- `StepKeepsTheRunInputs`, `StatusChangesOnlyAtTerminalEvents`, `EachSpaceHasItsWriters` and
`StepTakesTheParameters`: steps of a STORE, a CALL and a RET, and steps with no word at `ip`, at the end and past it.
-/
theorem test_witness_step :
    (let s := { callee 0 [1, 2] with code := [12, 0], ip := 0 }
     (∃ t, step s = .next t) ∧ s.codeAt? s.ip = some 12) ∧
      (let s := begun [16, 3, 0] 0 1
       (∃ t, step s = .next t) ∧ s.codeAt? s.ip = some 16) ∧
      (let s := { callee 0 [1, 2] with code := [17], ip := 0 }
       (∃ t, step s = .next t) ∧ s.codeAt? s.ip = some 17) ∧
      (∃ t, step (begun [18] 1 0) = .next t ∧ (begun [18] 1 0).codeAt? 1 = none) ∧
      ∃ t, step (begun [18] 2 0) = .next t ∧ (begun [18] 2 0).codeAt? 2 = none :=
  ⟨⟨⟨_, rfl⟩, rfl⟩, ⟨⟨_, rfl⟩, rfl⟩, ⟨⟨_, rfl⟩, rfl⟩, ⟨_, rfl, rfl⟩, _, rfl, rfl⟩

/-- `StepTakesTheParameters`: the step with the parameters given, and a state that takes none. -/
theorem test_witness_params_step :
    (∃ t, step (begun [18] 0 0) = .next t ∧
      stepWith Params.default (begun [18] 0 0).toEngineState = .next t.toEngineState) ∧
      step State.reset = .fault .engineIdle := ⟨⟨_, rfl, rfl⟩, rfl⟩

/-- `InRangeOperandsRaiseNoRangeFault`: a CALL at top level with the largest target and count, and a LOAD of the last
local in a frame. -/
theorem test_witness_in_range :
    (let s := top [1, 2, 3, 4]
     (Instr.call 23 4).wellFormed ⟨s.codeLen, s.gCap, s.params.frameLocals⟩ = true ∧
       (∀ o, Instr.call 23 4 = .load o ∨ Instr.call 23 4 = .store o → 0 ≤ s.fp) ∧ s.faultKind = none ∧
       ∃ t, exec (.call 23 4) s = .next t) ∧
      let s := callee (-1) []
      (Instr.load 3).wellFormed ⟨s.codeLen, s.gCap, s.params.frameLocals⟩ = true ∧
        (∀ o, Instr.load 3 = .load o ∨ Instr.load 3 = .store o → 0 ≤ s.fp) ∧ s.faultKind = none ∧
        ∃ t, exec (.load 3) s = .next t :=
  ⟨⟨by decide, fun _ h => (by simp at h), rfl, _, rfl⟩, by decide, fun _ _ => (by decide), rfl, _, rfl⟩

/-- A state that meets the invariant: Running inside a callee, with a caller's word, a local and a global. -/
theorem test_witness_inv : (callee 0 [1, 2]).Inv where
  params := by decide
  codeFits := by decide
  globalsFit := by decide
  spRange := by decide
  floorLe := by decide
  fpRange := by decide
  chain := by decide
  floors k hk := absurd hk (Nat.not_lt.2 (Nat.le_add_left 1 k))
  ipRange := by decide
  stackForm := by decide
  globalsForm := by decide
  framesForm := by decide
  localsForm := by decide
  faultKindForm := by decide
  faultOffsetForm := by decide
  faultedForm := by decide
  traceForm := by decide

/-- `FetchPastTheEndFaults`, its clause about ENTRY: an invariant state whose `ip` is past the end. -/
theorem test_witness_inv_past_end : (begun [18] 2 0).Inv where
  params := by decide
  codeFits := by decide
  globalsFit := by decide
  spRange := by decide
  floorLe := by decide
  fpRange := by decide
  chain := by decide
  floors k hk := absurd hk (Nat.not_lt_zero _)
  ipRange := by decide
  stackForm := by decide
  globalsForm := by decide
  framesForm := by decide
  localsForm := by decide
  faultKindForm := by decide
  faultOffsetForm := by decide
  faultedForm := by decide
  traceForm := by decide

/-- `InvariantHoldsAfterPowerOn`: the least legal parameters. -/
theorem test_witness_params :
    ({ Params.default with stackCap := 1, maxFrames := 1, frameLocals := 0, codeMax := 0, gMax := 0 } : Params).Legal := by
  decide

/-- `StepKeepsTheInvariant` and `RunningEngineAlwaysSteps`: that state is Running, and its step has a next state. -/
theorem test_witness_inv_step :
    (callee 0 [1, 2]).Inv ∧ (callee 0 [1, 2]).runState = .running ∧ ∃ t, step (callee 0 [1, 2]) = .next t :=
  ⟨test_witness_inv, rfl, _, rfl⟩

/-- `StartKeepsTheInvariant`, `InvariantsHoldThroughoutARun` and
`RunsAreDeterminedByTheirInputs`: two steps of a run started over that state, and the same run with TRACE. -/
theorem test_witness_run :
    (callee 0 [1, 2]).Inv ∧ ∃ t t' u, (callee 0 [1, 2]).start [9, 5, 14] 0 0 false = .next t ∧
      (callee 0 [1, 2]).start [9, 5, 14] 0 0 true = .next t' ∧ core.run 2 t = .next u :=
  ⟨test_witness_inv, _, _, _, rfl, rfl, rfl⟩

/-- `TraceChangesNothingElse`: two states that differ in TRACE. -/
theorem test_witness_trace : (begun [18] 0 0).SameButTrace (State.reset.started [18] 0 0 true) := rfl

/-- `UnoccupiedSlotsAreUnobservable`: a word above `sp` and a record above `fp`. -/
theorem test_witness_unoccupied :
    (callee 0 [1, 2]).SameVisible { callee 0 [1, 2] with
      stack := (callee 0 [1, 2]).stack.write 2 9
      frames := cellPut (callee 0 [1, 2]).frames 1 { retIp := 1, savedFp := 0, savedSp := 5, locals := [] } } := by
  refine ⟨rfl, fun j hj => ?_, fun k hk => ?_⟩
  · have e : (callee 0 [1, 2]).sp = 1 := rfl
    have h := State.slot?_putSlot (s := callee 0 [1, 2]) (i := 2) (by decide) 9 j
    rw [if_neg (by omega)] at h
    exact h
  · have e : (callee 0 [1, 2]).fp = 0 := rfl
    have h := State.frame?_putFrame (s := callee 0 [1, 2]) (k := 1) (by decide)
      { retIp := 1, savedFp := 0, savedSp := 5, locals := [] } k
    rw [if_neg (by omega)] at h
    exact h

end Sys2Proof.Tests
end

/-!
The scope family (spec/00_scope.md): the loader's round trip (R56, log 18) and the atomicity of a faulting
instruction (R16, R194, R196).
-/

namespace Sys2Proof

/-! ### The loader -/

/-- The loader takes a word's bytes off the front as that word, whatever bytes follow (R56). -/
theorem wordsOfBytes_bytesOfWord_append (order : ByteOrder) (w : Word) (bytes : List (BitVec 8)) :
    wordsOfBytes order (bytesOfWord order w ++ bytes) = (wordsOfBytes order bytes).map (w :: ·) := by
  have join : (w.extractLsb' 24 8 ++ (w.extractLsb' 16 8 ++ (w.extractLsb' 8 8 ++ w.extractLsb' 0 8)) : Word) = w := by
    rw [BitVec.extractLsb'_append_extractLsb'_eq_extractLsb' (by rfl),
      BitVec.extractLsb'_append_extractLsb'_eq_extractLsb' (by rfl),
      BitVec.extractLsb'_append_extractLsb'_eq_extractLsb' (by rfl), BitVec.extractLsb'_eq_self]
  cases order <;> exact congrArg (fun v => (wordsOfBytes _ bytes).map (v :: ·)) join

/-- Settles O5, by induction on the words serialised. -/
theorem loaderReadsBackSerialisedWords : Obligations.LoaderReadsBackSerialisedWords := by
  intro order ws
  induction ws with
  | nil => rfl
  | cons w ws ih =>
    calc wordsOfBytes order (bytesOfWord order w ++ bytesOfWords order ws)
        = (wordsOfBytes order (bytesOfWords order ws)).map (w :: ·) := wordsOfBytes_bytesOfWord_append order w _
      _ = some (w :: ws) := by rw [ih]; rfl

namespace Machine

/-! ### Faulting instructions -/

variable {i : Instr} {s t : State}

/-- FAULT_OFFSET holds every offset that fits its 32 bits (R191). -/
theorem faultOffsetOf_toNat {cur : Nat} (h : cur < 2 ^ 32) : (faultOffsetOf cur).toNat = cur := by
  rw [faultOffsetOf, if_pos h, BitVec.toNat_ofNat, Nat.mod_eq_of_lt h]

/-- An instruction that neither enters a fault nor halts leaves STATUS and FAULT_OFFSET as they stood (R41). -/
theorem State.Effect.faulted_or_halt_or_sameStatus (h : s.Effect i t) :
    (∃ k, t = s.faulted k) ∨ (i = .halt ∧ t = s.halt) ∨ s.SameStatus t := by
  cases h with
  | fault k => exact .inl ⟨k, rfl⟩
  | halt hi => exact .inr (.inl ⟨hi, rfl⟩)
  | jump | push | alu | pop | popJump | popLocal | popGlobal | popEmit | call | retValue | ret =>
    exact .inr (.inr ⟨rfl, rfl, rfl⟩)

/-- The run becomes Faulted in Execute by fault entry alone, made on the state Execute was given (R194, R196). -/
theorem exec_eq_faulted (hs : s.runState ≠ .faulted) (h : exec i s = .next t) (ht : t.runState = .faulted) :
    ∃ k, t = s.faulted k := by
  obtain hk | ⟨-, rfl⟩ | ⟨hrun, -, -⟩ := (exec_effect h).faulted_or_halt_or_sameStatus
  · exact hk
  · rw [State.halt_runState] at ht
    exact absurd ht (by decide)
  · exact absurd (hrun ▸ ht) hs

/-- Settles O15: the next state is the fault's entry on the state Execute was given. -/
theorem faultingInstructionWritesNothing : Obligations.FaultingInstructionWritesNothing := by
  intro i s t hs h ht
  obtain ⟨k, rfl⟩ := exec_eq_faulted hs h ht
  exact ⟨k, rfl, faultOffsetOf_toNat⟩

end Machine

end Sys2Proof

/-!
The state family (spec/10_state.md), its shared layer: what a completed Decode says of the words at `ip`, what the step
then is, and the run inputs no step writes. Then the call chain (R170), which needs nothing more.
-/

namespace Sys2Proof

/-! ### Decode -/

/-- The word that selects an opcode is that opcode's value (R72, R73, R84). -/
theorem opcodeOfWord_eq_some {w : Word} {op : Opcode} (h : opcodeOfWord w = some op) :
    w = BitVec.ofNat 32 op.value := by
  obtain ⟨row, hrow, rfl⟩ := Option.map_eq_some_iff.1 h
  have table : ∀ row ∈ opcodeTable, BitVec.ofInt 32 row.1 = BitVec.ofNat 32 row.2.value := by decide
  have hw : s32 w = row.1 := by simpa using List.find?_some hrow
  calc w = BitVec.ofInt 32 (s32 w) := (BitVec.ofInt_toInt).symm
    _ = BitVec.ofInt 32 row.1 := by rw [hw]
    _ = BitVec.ofNat 32 row.2.value := table row (List.mem_of_find?_eq_some hrow)

/-- An opcode with its operand words encodes to its value and as many of these words as its arity (R71). -/
theorem encode_instr (op : Opcode) (o1 o2 : Word) :
    encode (op.instr o1 o2) = BitVec.ofNat 32 op.value :: [o1, o2].take op.arity := by
  cases op <;> rfl

theorem Opcode.arity_le (op : Opcode) : op.arity ≤ 2 := by cases op <;> decide

/-- The operand words the decoder reads are the first ones after the opcode word. -/
theorem take_operands {n : Nat} (hn : n ≤ 2) {ws : List Word} (h : n ≤ ws.length) :
    [ws.getD 0 0, ws.getD 1 0].take n = ws.take n := by
  match n, ws, hn, h with
  | 0, _, _, _ => rfl
  | 1, _ :: _, _, _ => rfl
  | 2, _ :: _ :: _, _, _ => rfl

/-- What the decoder accepts begins with the words of the instruction it answers (R70, R71, R80). -/
theorem eq_encode_of_decode {ws rest : List Word} {i : Instr} (h : decode ws = .ok i rest) :
    ws = encode i ++ rest := by
  cases ws with
  | nil => cases h
  | cons w ws =>
    rw [decode] at h
    split at h
    · cases h
    · rename_i op hop
      split_ifs at h with hlen
      cases h
      rw [encode_instr, take_operands op.arity_le (not_lt.1 hlen), ← opcodeOfWord_eq_some hop, List.cons_append,
        List.take_append_drop]

namespace Machine

variable {i : Instr} {s t : State} {rest : List Word}

/-- An instruction that decodes ends within the program (R83). -/
theorem decode_size_le (h : decode (s.code.drop s.ip) = .ok i rest) (hip : s.ip < s.codeLen) :
    s.ip + i.size ≤ s.codeLen := by
  have hlen := congrArg List.length (eq_encode_of_decode h)
  simp only [List.length_drop, List.length_append, encode, List.length_cons] at hlen
  unfold Instr.size State.codeLen at *
  omega

/-- The word at `ip` of an instruction that decodes is its opcode's value. -/
theorem codeAt?_of_decode (h : decode (s.code.drop s.ip) = .ok i rest) :
    s.codeAt? s.ip = some (BitVec.ofNat 32 i.opcode.value) := by
  have hhead := congrArg List.head? (eq_encode_of_decode h)
  rwa [List.head?_drop] at hhead

/-! ### The step -/

/-- When the words at `ip` decode, the step is the instruction's rule on the decoded state (R78, R80). -/
theorem step_of_decode (hr : s.runState = .running) (hip : s.ip < s.codeLen)
    (hd : decode (s.code.drop s.ip) = .ok i rest) : step s = exec i (s.decoded i) := by
  have hf : s.fetchRunning = .dispatch i (s.decoded i) := by
    rw [State.fetchRunning, if_neg hip.ne, if_neg hip.not_gt, hd]
  rw [step, fetch_running hr, hf]

/-- No instruction writes the parameters or the latched run inputs (R44, R48). -/
theorem State.Effect.sameInputs (h : s.Effect i t) : s.SameInputs t := by
  cases h <;> simp [State.SameInputs]

/-- Settles O38: neither Fetch, Decode nor any effect of an instruction writes them. -/
theorem stepKeepsTheRunInputs : Obligations.StepKeepsTheRunInputs := by
  intro s t h
  obtain ⟨-, ⟨-, rfl⟩ | ⟨-, rfl⟩ | ⟨-, e, -, rfl⟩ | ⟨-, i, rest, -, he⟩⟩ := step_eq_next h
  · exact ⟨rfl, rfl, rfl, rfl, rfl⟩
  · exact ⟨rfl, rfl, rfl, rfl, rfl⟩
  · exact ⟨rfl, rfl, rfl, rfl, rfl⟩
  · simpa [State.SameInputs] using (exec_effect he).sameInputs

/-! ### The call chain -/

variable {k : Int} {a n : Nat} {p : Int}

/-- The record `F[k]` returns to offset `a` and stack level `p` in the frame below it (R36, R164). -/
def State.ReturnsTo (s : State) (k : Int) (a : Nat) (p : Int) : Prop :=
  ∃ r, s.frame? k = some r ∧ r.retIp = a ∧ r.savedFp = k - 1 ∧ r.savedSp = p

theorem State.ReturnsTo.congr (h : s.ReturnsTo k a p) (hf : t.frame? k = s.frame? k) : t.ReturnsTo k a p := by
  obtain ⟨r, hr, hrest⟩ := h
  exact ⟨r, hf.trans hr, hrest⟩

/-- An instruction that leaves `F[k]` active leaves where it returns to (R37, R170). -/
theorem State.Effect.returnsTo (h : s.Effect i t) (hs : k ≤ s.fp) (ht : k ≤ t.fp) (hk : s.ReturnsTo k a p) :
    t.ReturnsTo k a p := by
  obtain ⟨rk, hrk, ha, hfp, hp⟩ := hk
  have hret {r : FrameRecord} (hr : s.frame? s.fp = some r) (h' : k ≤ r.savedFp) : k ≠ s.fp := by
    rintro rfl
    obtain rfl := Option.some.inj (hrk.symm.trans hr)
    omega
  cases h with
  | fault | halt | jump | push | alu | pop | popJump | popGlobal | popEmit => exact ⟨rk, hrk, ha, hfp, hp⟩
  | popLocal floor r o v hi hf hd hr ho =>
    have hput := State.frame?_putLocal (s := s.setSp (s.sp - 1)) (State.frame?_eq_some.1 hr).1 r (operandIndex o) v k
    by_cases hkfp : k = s.fp
    · subst hkfp
      obtain rfl := Option.some.inj (hrk.symm.trans hr)
      exact ⟨_, hput.trans (if_pos rfl), ha, hfp, hp⟩
    · exact ⟨rk, hput.trans ((if_neg hkfp).trans hrk), ha, hfp, hp⟩
  | call floor args target nargs hi hn hf hd hl ha' hv hk' =>
    exact ⟨rk, (State.frame?_enterCall hk' args target k).trans ((if_neg (by omega)).trans hrk), ha, hfp, hp⟩
  | retValue r v hi hne hr hd hsl hv =>
    refine ⟨rk, (State.frame?_leaveFrame (State.frame?_eq_some.1 hr).1 r k).trans ?_, ha, hfp, hp⟩
    exact (if_neg (hret hr ht)).trans hrk
  | ret r hi hne hr hd =>
    refine ⟨rk, (State.frame?_leaveFrame (State.frame?_eq_some.1 hr).1 r k).trans ?_, ha, hfp, hp⟩
    exact (if_neg (hret hr ht)).trans hrk

/-- A step that leaves `F[k]` active leaves where it returns to. -/
theorem step_returnsTo (h : step s = .next t) (hs : k ≤ s.fp) (ht : k ≤ t.fp) (hk : s.ReturnsTo k a p) :
    t.ReturnsTo k a p := by
  obtain ⟨-, ⟨-, rfl⟩ | ⟨-, rfl⟩ | ⟨-, e, -, rfl⟩ | ⟨-, i, rest, -, he⟩⟩ := step_eq_next h
  · exact hk
  · exact hk
  · exact hk
  · exact (exec_effect he).returnsTo (by simpa using hs) ht (hk.congr (by simp))

theorem State.RunsAbove.le_fp (h : State.RunsAbove k n s t) : k ≤ s.fp := by
  cases h with
  | refl _ h => exact h
  | next _ _ _ _ h => exact h

/-- A run above `F[k]` leaves where that record returns to. -/
theorem State.RunsAbove.returnsTo (h : State.RunsAbove k n s t) (hk : s.ReturnsTo k a p) : t.ReturnsTo k a p := by
  induction h with
  | refl => exact hk
  | next n s t u hs hstep hrun ih => exact ih (step_returnsTo hstep hs hrun.le_fp hk)

/-- A CALL after which the engine still runs has made the record that returns past it (R160 to R164). -/
theorem execCall_returnsTo {target nargs : Word} (h : exec (.call target nargs) s = .next t)
    (hr : t.runState = .running) : 0 ≤ s.fp + 1 ∧ t.ReturnsTo (s.fp + 1) s.ip (s.sp - s32 nargs) := by
  have hfault {k : FaultKind} (hk : t = s.faulted k) : False := by
    subst hk
    exact absurd hr (by simp)
  obtain ⟨hn, floor, hf, ⟨-, e⟩ | ⟨hd, ⟨-, e⟩ | ⟨-, ⟨-, hk, args, ha, rfl⟩ | ⟨-, e⟩⟩⟩⟩ | ⟨-, e⟩ := execCall_eq_next.1 h
  · exact (hfault e).elim
  · exact (hfault e).elim
  · have hlen : (args.length : Int) = s32 nargs := by
      rw [(State.topWords?_eq_some ha).1, operandIndex_cast (State.validNargs_iff.1 hn).1]
    refine ⟨(State.hasFrame_iff.1 hk).1, s.callRecord args, ?_, rfl, ?_, ?_⟩
    · rw [State.frame?_enterCall hk, if_pos rfl]
    · exact (add_sub_cancel_right _ _).symm
    · exact congrArg (s.sp - ·) hlen
  · exact (hfault e).elim
  · exact (hfault e).elim

/-- RET goes where the active frame's record returns to, with the value if the frame holds one (R166, R167). -/
theorem execRet_of_returnsTo (h : exec .ret s = .next t) (hfp : 0 ≤ s.fp) (hk : s.ReturnsTo s.fp a p) :
    t.fp = s.fp - 1 ∧ t.ip = a ∧ t.sp = p + (if p < s.sp then 1 else 0) := by
  obtain ⟨r, hr, rfl, hfp', rfl⟩ := hk
  obtain ⟨hbad, -⟩ | ⟨-, r', hr', hret⟩ := execRet_eq_next.1 h
  · omega
  obtain rfl := Option.some.inj (hr.symm.trans hr')
  obtain ⟨hlt, -, w, -, rfl⟩ | ⟨hle, rfl⟩ := hret
  · exact ⟨hfp', rfl, by rw [if_pos hlt]; rfl⟩
  · exact ⟨hfp', rfl, by rw [if_neg hle.not_gt, add_zero]; rfl⟩

/-- Settles O37: the record the CALL made still says where to return to when the RET ends its frame. -/
theorem returnMatchesItsCall : Obligations.ReturnMatchesItsCall := by
  intro s t u v target nargs rest rest' n hs hip hdec hcall ht hrun hufp hu huip hudec hret
  rw [step_of_decode hs hip hdec] at hcall
  rw [step_of_decode hu huip hudec] at hret
  obtain ⟨h0, hmade⟩ := execCall_returnsTo hcall ht
  simp only [State.decoded_fp, State.decoded_ip, State.decoded_sp] at h0 hmade
  have hkept := hrun.returnsTo hmade
  have hend : (u.decoded .ret).ReturnsTo (u.decoded .ret).fp (s.ip + 3) (s.sp - s32 nargs) := by
    rw [State.decoded_fp, hufp]
    exact hkept.congr (by simp)
  obtain ⟨hfp, hip', hsp⟩ := execRet_of_returnsTo hret (by simp; omega) hend
  simp only [State.decoded_fp, State.decoded_sp] at hfp hsp
  exact ⟨by omega, hip', hsp⟩

end Machine

end Sys2Proof

/-!
The engine's invariant (R49): power-on and a start bring it about, each operation an instruction is made of keeps it,
and so does every step.
-/

namespace Sys2Proof.Machine

variable {i : Instr} {s t u : State} {r r' : FrameRecord} {floor : Int} {rest : List Word}

/-! ### Power-on and start -/

theorem State.frame?_of_neg {k : Int} (hk : k < 0) : s.frame? k = none := by
  rw [State.frame?, if_neg]
  rw [State.hasFrame_iff]
  omega

/-- Power-on with legal parameters meets the invariant: nothing is listed and no frame is active (R223). -/
theorem powerOn_inv {p : Params} (hp : p.Legal) : (State.powerOn p).Inv where
  params := hp
  codeFits := Nat.zero_le _
  globalsFit := Nat.zero_le _
  spRange := ⟨le_rfl, show (-1 : Int) ≤ p.stackCap - 1 by omega⟩
  floorLe r hr := by
    rw [State.frame?_of_neg (show (State.powerOn p).fp < 0 from neg_one_lt_zero)] at hr
    cases hr
  fpRange := ⟨le_rfl, show (-1 : Int) ≤ p.maxFrames - 1 by omega⟩
  chain k hk := absurd hk (Nat.not_lt_zero k)
  floors k hk := absurd hk (Nat.not_lt_zero _)
  ipRange := .inl le_rfl
  stackForm := ⟨Memory.wf_nil, List.forall_mem_nil _⟩
  globalsForm := ⟨Memory.wf_nil, List.forall_mem_nil _⟩
  framesForm := ⟨List.Pairwise.nil, List.forall_mem_nil _⟩
  localsForm := List.forall_mem_nil _
  faultKindForm := ⟨fun _ => RunState.noConfusion, fun _ => rfl⟩
  faultOffsetForm _ := rfl
  faultedForm h := RunState.noConfusion h
  traceForm _ := rfl

/-- Settles O42. -/
theorem invariantHoldsAfterPowerOn : Obligations.InvariantHoldsAfterPowerOn :=
  ⟨fun _ hp => powerOn_inv hp, powerOn_inv (by decide)⟩

/-- A start with inputs that fit keeps the invariant: no frame is active, and what it leaves keeps its form (R220). -/
theorem State.Inv.started (h : s.Inv) {code : List Word} {entry gCap : Nat} {trace : Bool}
    (hcode : code.length ≤ s.params.codeMax) (hg : gCap ≤ s.params.gMax) : (s.started code entry gCap trace).Inv where
  params := h.params
  codeFits := hcode
  globalsFit := hg
  spRange := ⟨le_rfl, show (-1 : Int) ≤ s.params.stackCap - 1 by have := h.params.1; omega⟩
  floorLe r hr := by
    rw [State.frame?_of_neg (show (s.started code entry gCap trace).fp < 0 from neg_one_lt_zero)] at hr
    cases hr
  fpRange := ⟨le_rfl, show (-1 : Int) ≤ s.params.maxFrames - 1 by have := h.params.2; omega⟩
  chain k hk := absurd hk (Nat.not_lt_zero k)
  floors k hk := absurd hk (Nat.not_lt_zero _)
  ipRange := (le_or_gt entry code.length).imp_right fun hlt => ⟨rfl, hlt⟩
  stackForm := h.stackForm
  globalsForm := ⟨Memory.wf_nil, List.forall_mem_nil _⟩
  framesForm := h.framesForm
  localsForm := h.localsForm
  faultKindForm := by simp
  faultOffsetForm _ := rfl
  faultedForm hf := by simp at hf
  traceForm _ := rfl

theorem State.startAccepted_iff {code : List Word} {gCap : Nat} :
    s.startAccepted code gCap = true ↔ code.length ≤ s.params.codeMax ∧ gCap ≤ s.params.gMax := by
  simp [State.startAccepted]

theorem State.start_eq_next {code : List Word} {entry gCap : Nat} {trace : Bool} :
    s.start code entry gCap trace = .next t ↔
      (code.length ≤ s.params.codeMax ∧ gCap ≤ s.params.gMax) ∧ t = s.started code entry gCap trace := by
  rw [State.start, ← State.startAccepted_iff]
  split_ifs with hacc <;> simp [hacc, eq_comm]

/-- Settles O43. -/
theorem startKeepsTheInvariant : Obligations.StartKeepsTheInvariant := by
  intro s t code entry gCap trace h hst
  obtain ⟨⟨hcode, hg⟩, rfl⟩ := State.start_eq_next.1 hst
  exact h.started hcode hg

/-! ### What the invariant says of the active frame -/

theorem State.lt_activeFrames_iff {k : Nat} : k < s.activeFrames ↔ (k : Int) ≤ s.fp := by
  unfold State.activeFrames
  omega

/-- The active record leads to the frame below, whose level is in range, and to an offset in the program. -/
theorem State.Inv.activeRecord (h : s.Inv) (hr : s.frame? s.fp = some r) :
    0 ≤ s.fp ∧ r.savedFp = s.fp - 1 ∧ -1 ≤ r.savedSp ∧ r.savedSp ≤ s.sp ∧ r.retIp ≤ s.codeLen := by
  obtain ⟨hk, hget⟩ := State.frame?_eq_some.1 hr
  have h0 := (State.hasFrame_iff.1 hk).1
  obtain ⟨r', hr', hfp, hsp, hret⟩ := h.chain s.fp.toNat (State.lt_activeFrames_iff.2 (by omega))
  obtain rfl := Option.some.inj (hget.symm.trans hr')
  exact ⟨h0, by omega, hsp, h.floorLe r hr, hret⟩

/-- The floor rises from the frame below the active one to the active one. -/
theorem State.Inv.floor_below (h : s.Inv) (hr : s.frame? s.fp = some r) (hr' : s.frame? (s.fp - 1) = some r') :
    r'.savedSp ≤ r.savedSp := by
  obtain ⟨-, hget⟩ := State.frame?_eq_some.1 hr
  obtain ⟨hk', hget'⟩ := State.frame?_eq_some.1 hr'
  have h0 := (State.hasFrame_iff.1 hk').1
  refine h.floors (s.fp - 1).toNat (State.lt_activeFrames_iff.2 (by omega)) r' hget' r ?_
  rw [show (s.fp - 1).toNat + 1 = s.fp.toNat by omega]
  exact hget

/-- The active record's level is the floor (R31). -/
theorem State.savedSp_eq_floor (hf : s.floor? = some floor) (hr : s.frame? s.fp = some r) : r.savedSp = floor := by
  have h0 := (State.hasFrame_iff.1 (State.frame?_eq_some.1 hr).1).1
  rw [State.floor?_frame (by omega), hr] at hf
  exact Option.some.inj hf

/-- R49 (1): there is a floor, and it is between -1 and `sp`. -/
theorem State.Inv.floor_exists (h : s.Inv) : ∃ floor, s.floor? = some floor ∧ -1 ≤ floor ∧ floor ≤ s.sp := by
  by_cases htop : s.fp = -1
  · exact ⟨-1, State.floor?_top htop, le_rfl, h.spRange.1⟩
  · have hfp := h.fpRange
    obtain ⟨r, hget, -⟩ := h.chain s.fp.toNat (State.lt_activeFrames_iff.2 (by omega))
    have hr : s.frame? s.fp = some r := State.frame?_eq_some.2 ⟨State.hasFrame_iff.2 (by omega), hget⟩
    obtain ⟨-, -, hlow, hle, -⟩ := h.activeRecord hr
    exact ⟨r.savedSp, by rw [State.floor?_frame htop, hr]; rfl, hlow, hle⟩

theorem State.Inv.floor_ge (h : s.Inv) (hf : s.floor? = some floor) : -1 ≤ floor := by
  obtain ⟨floor', hf', hlow, -⟩ := h.floor_exists
  obtain rfl := Option.some.inj (hf.symm.trans hf')
  exact hlow

/-! ### The operations keep the invariant -/

theorem State.Inv.setIp (h : s.Inv) (hs : s.runState ≠ .faulted) {a : Nat} (ha : a ≤ s.codeLen) :
    (s.setIp a).Inv :=
  { h with ipRange := .inl ha, faultedForm := fun hf => absurd hf hs }

theorem State.Inv.setCur (h : s.Inv) (hs : s.runState ≠ .faulted) (a : Nat) : (s.setCur a).Inv :=
  { h with faultedForm := fun hf => absurd hf hs }

/-- `sp` may move anywhere between the floor and the top of the stack. -/
theorem State.Inv.setSp (h : s.Inv) (hf : s.floor? = some floor) {j : Int} (hlow : floor ≤ j)
    (hhigh : j ≤ s.params.stackCap - 1) : (s.setSp j).Inv :=
  { h with
    spRange := ⟨(h.floor_ge hf).trans hlow, hhigh⟩
    floorLe := fun _ hr => (State.savedSp_eq_floor hf hr).trans_le hlow }

theorem State.Inv.putSlot (h : s.Inv) {j : Int} (hj : s.hasSlot j = true) (v : Word) : (s.putSlot j v).Inv := by
  have hlt := State.hasSlot_iff.1 hj
  refine { h with stackForm := ⟨Memory.wf_write h.stackForm.1 _ _, fun c hc => ?_⟩ }
  obtain hc | hc := Memory.mem_write hc
  · rw [hc, State.putSlot_params]; omega
  · exact h.stackForm.2 c hc

theorem State.Inv.putGlobal (h : s.Inv) {j : Nat} (hj : j < s.gCap) (v : Word) : (s.putGlobal j v).Inv :=
  { h with
    globalsForm := ⟨Memory.wf_write h.globalsForm.1 _ _, fun c hc =>
      (Memory.mem_write hc).elim (fun hc => hc ▸ hj) (h.globalsForm.2 c)⟩ }

theorem State.Inv.emit (h : s.Inv) (v : Word) : (s.emit v).Inv := { h with }

theorem State.Inv.halt (h : s.Inv) (hs : s.runState ≠ .faulted) : s.halt.Inv :=
  { h with
    faultKindForm := by simpa using h.faultKindForm.2 hs
    faultOffsetForm := fun _ => h.faultOffsetForm hs
    faultedForm := fun hf => by simp at hf }

/-- Fault entry keeps the invariant where the instruction's own offset is one `ip` may have (R191, R196). -/
theorem State.Inv.faulted (h : s.Inv) (hcur : s.cur ≤ s.codeLen ∨ (s.cur = s.entry ∧ s.codeLen < s.entry))
    (k : FaultKind) : (s.faulted k).Inv :=
  { h with
    ipRange := hcur
    faultKindForm := by simp
    faultOffsetForm := fun hf => absurd rfl hf
    faultedForm := fun _ => ⟨rfl, rfl⟩ }

/-- A record keeps what it says of its caller when a local is written. -/
theorem State.cellGet_putLocal (hr : s.frame? s.fp = some r) (a k : Nat) (v : Word) :
    ∃ f : Memory → Memory, cellGet (s.putLocal r a v).frames k =
      (cellGet s.frames k).map fun r => { r with locals := f r.locals } := by
  by_cases hk : k = s.fp.toNat
  · subst hk
    exact ⟨(·.write a v), by simp [(State.frame?_eq_some.1 hr).2]⟩
  · exact ⟨id, by simp [cellGet_cellPut_other _ _ hk]⟩

theorem State.Inv.putLocal (h : s.Inv) (hr : s.frame? s.fp = some r) {a : Nat} (ha : a < s.params.frameLocals)
    (v : Word) : (s.putLocal r a v).Inv := by
  obtain ⟨hk, hget⟩ := State.frame?_eq_some.1 hr
  have hlt := State.hasFrame_iff.1 hk
  refine { h with floorLe := ?floorLe, chain := ?chain, floors := ?floors, framesForm := ?framesForm,
                  localsForm := ?localsForm }
  case floorLe =>
    intro r' hr'
    obtain rfl : _ = r' := Option.some.inj (((State.frame?_putLocal hk r a v s.fp).trans (if_pos rfl)).symm.trans hr')
    exact h.floorLe r hr
  case chain =>
    intro k hk
    obtain ⟨f, hf⟩ := State.cellGet_putLocal hr a k v
    obtain ⟨r', hr', hrest⟩ := h.chain k hk
    exact ⟨_, hf.trans (congrArg (Option.map _) hr'), hrest⟩
  case floors =>
    intro k hk r₁ hr₁ r₂ hr₂
    obtain ⟨f₁, hf₁⟩ := State.cellGet_putLocal hr a k v
    obtain ⟨f₂, hf₂⟩ := State.cellGet_putLocal hr a (k + 1) v
    obtain ⟨q₁, hq₁, rfl⟩ := Option.map_eq_some_iff.1 (hf₁.symm.trans hr₁)
    obtain ⟨q₂, hq₂, rfl⟩ := Option.map_eq_some_iff.1 (hf₂.symm.trans hr₂)
    exact h.floors k hk q₁ hq₁ q₂ hq₂
  case framesForm =>
    refine ⟨cellsSorted_cellPut h.framesForm.1 _ _, fun c hc => ?_⟩
    obtain rfl | hc := mem_cellPut hc
    · simp only [State.putLocal_params]; omega
    · exact h.framesForm.2 c hc
  case localsForm =>
    intro c hc
    obtain rfl | hc := mem_cellPut hc
    · obtain ⟨hwf, hin⟩ := h.localsForm _ (mem_of_cellGet hget)
      exact ⟨Memory.wf_write hwf _ _, fun l hl => (Memory.mem_write hl).elim (fun hl => hl ▸ ha) (hin l)⟩
    · exact h.localsForm c hc

/-- CALL's writes keep the invariant: the new record is the top of the chain, with the highest floor (R160). -/
theorem State.Inv.enterCall (h : s.Inv) (hs : s.runState ≠ .faulted) (hip : s.ip ≤ s.codeLen)
    (hf : s.floor? = some floor) {args : List Word} {target : Word} (hd : args.length ≤ s.sp - floor)
    (hl : args.length ≤ s.params.frameLocals) (hv : s.validTarget target = true)
    (hk : s.hasFrame (s.fp + 1) = true) : (s.enterCall args target).Inv := by
  have hlt := State.hasFrame_iff.1 hk
  have hv := State.validTarget_iff.1 hv
  have hfloor := h.floor_ge hf
  have hsp := h.spRange
  have hfp := h.fpRange
  have hnew : cellGet (s.enterCall args target).frames (s.fp + 1).toNat = some (s.callRecord args) :=
    cellGet_cellPut_same _ _ _
  have hold {k : Nat} (hne : k ≠ (s.fp + 1).toNat) :
      cellGet (s.enterCall args target).frames k = cellGet s.frames k := cellGet_cellPut_other _ _ hne
  refine { h with spRange := ?spRange, floorLe := ?floorLe, fpRange := ?fpRange, chain := ?chain, floors := ?floors,
                  ipRange := ?ipRange, framesForm := ?framesForm, localsForm := ?localsForm,
                  faultedForm := fun hf => absurd hf hs }
  case spRange => simp only [State.enterCall_sp, State.enterCall_params]; omega
  case floorLe =>
    intro r hr
    obtain rfl : _ = r := Option.some.inj (((State.frame?_enterCall hk args target _).trans (if_pos rfl)).symm.trans hr)
    exact le_rfl
  case fpRange => simp only [State.enterCall_fp, State.enterCall_params]; omega
  case chain =>
    intro k hact
    rw [State.lt_activeFrames_iff, State.enterCall_fp] at hact
    by_cases hne : k = (s.fp + 1).toNat
    · subst hne
      refine ⟨_, hnew, ?_, ?_, hip⟩ <;> simp only [State.callRecord] <;> omega
    · rw [hold hne]
      exact h.chain k (State.lt_activeFrames_iff.2 (by omega))
  case floors =>
    intro k hact r₁ hr₁ r₂ hr₂
    rw [State.lt_activeFrames_iff, State.enterCall_fp] at hact
    rw [hold (by omega)] at hr₁
    by_cases hne : k + 1 = (s.fp + 1).toNat
    · rw [hne, hnew] at hr₂
      obtain rfl := Option.some.inj hr₂
      have hr : s.frame? s.fp = some r₁ :=
        State.frame?_eq_some.2 ⟨State.hasFrame_iff.2 (by omega), by rwa [show s.fp.toNat = k by omega]⟩
      have := State.savedSp_eq_floor hf hr
      simp only [State.callRecord]
      omega
    · rw [hold hne] at hr₂
      exact h.floors k (State.lt_activeFrames_iff.2 (by omega)) r₁ hr₁ r₂ hr₂
  case ipRange =>
    have := operandIndex_cast hv.1
    exact .inl (by simp only [State.enterCall_ip, State.codeLen_enterCall]; omega)
  case framesForm =>
    refine ⟨cellsSorted_cellPut h.framesForm.1 _ _, fun c hc => ?_⟩
    obtain rfl | hc := mem_cellPut hc
    · simp only [State.enterCall_params]; omega
    · exact h.framesForm.2 c hc
  case localsForm =>
    intro c hc
    obtain rfl | hc := mem_cellPut hc
    · refine ⟨Memory.wf_writeList Memory.wf_nil _ _, fun l hl => ?_⟩
      obtain hl | hl := Memory.mem_writeList hl
      · simp only [State.enterCall_params]; omega
      · cases hl
    · exact h.localsForm c hc

/-- RET's leaving of a frame keeps the invariant: the chain below it is as it was (R166). -/
theorem State.Inv.leaveFrame (h : s.Inv) (hs : s.runState ≠ .faulted) (hr : s.frame? s.fp = some r) :
    (s.leaveFrame r).Inv := by
  obtain ⟨h0, hsaved, -, hle, hret⟩ := h.activeRecord hr
  have hk := (State.frame?_eq_some.1 hr).1
  have hfp := h.fpRange
  have hold {k : Nat} (hne : k ≠ s.fp.toNat) : cellGet (s.leaveFrame r).frames k = cellGet s.frames k :=
    cellGet_cellErase_other _ hne
  refine { h with floorLe := ?floorLe, fpRange := ?fpRange, chain := ?chain, floors := ?floors, ipRange := .inl hret,
                  framesForm := ?framesForm, localsForm := fun c hc => h.localsForm c (mem_cellErase hc),
                  faultedForm := fun hf => absurd hf hs }
  case floorLe =>
    intro r' hr'
    rw [State.leaveFrame_fp, State.frame?_leaveFrame hk, if_neg (by omega), hsaved] at hr'
    exact (h.floor_below hr hr').trans hle
  case fpRange => simp only [State.leaveFrame_fp, State.leaveFrame_params]; omega
  case chain =>
    intro k hk
    rw [State.lt_activeFrames_iff, State.leaveFrame_fp] at hk
    rw [hold (by omega)]
    exact h.chain k (State.lt_activeFrames_iff.2 (by omega))
  case floors =>
    intro k hk
    rw [State.lt_activeFrames_iff, State.leaveFrame_fp] at hk
    rw [hold (by omega), hold (by omega)]
    exact h.floors k (State.lt_activeFrames_iff.2 (by omega))
  case framesForm =>
    exact ⟨cellsSorted_cellErase h.framesForm.1 _, fun c hc => h.framesForm.2 c (mem_cellErase hc)⟩

/-! ### Every instruction and every step keeps the invariant -/

theorem operandIndex_le_codeLen {o : Word} (h : s.validTarget o = true) : operandIndex o ≤ s.codeLen := by
  have hv := State.validTarget_iff.1 h
  have := operandIndex_cast hv.1
  omega

/-- An instruction keeps the invariant when its own offset and the next one are in the program. -/
theorem State.Effect.inv (he : s.Effect i t) (h : s.Inv) (hr : s.runState = .running) (hip : s.ip ≤ s.codeLen)
    (hcur : s.cur ≤ s.codeLen) : t.Inv := by
  have hs : s.runState ≠ .faulted := by rw [hr]; decide
  have hpop {floor : Int} (n : Int) (hn : 0 ≤ n) (hf : s.floor? = some floor) (hd : n ≤ s.sp - floor) :
      (s.setSp (s.sp - n)).Inv := h.setSp hf (by omega) ((sub_le_self s.sp hn).trans h.spRange.2)
  cases he with
  | fault k => exact h.faulted (.inl hcur) k
  | halt => exact h.halt hs
  | jump target hv => exact h.setIp hs (operandIndex_le_codeLen hv)
  | push v hslot =>
    obtain ⟨floor, hf, -, hle⟩ := h.floor_exists
    have hlt := State.hasSlot_iff.1 hslot
    exact (h.setSp (j := s.sp + 1) hf (by omega) (by omega)).putSlot hslot v
  | alu floor v hf hd hslot => exact (hpop 1 (by decide) hf (by omega)).putSlot hslot v
  | pop floor hf hd => exact hpop 1 (by decide) hf hd
  | popJump floor target hf hd hv => exact (hpop 1 (by decide) hf hd).setIp hs (operandIndex_le_codeLen hv)
  | popLocal floor r o v hi hf hd hr ho =>
    obtain ⟨-, hlow, hlt⟩ := State.validLocal_iff.1 ho
    have := operandIndex_cast hlow
    exact (hpop 1 (by decide) hf hd).putLocal hr (by simp only [State.setSp_params]; omega) v
  | popGlobal floor o v hi hf hd ho =>
    obtain ⟨hlow, hlt⟩ := State.validGlobal_iff.1 ho
    have := operandIndex_cast hlow
    exact (hpop 1 (by decide) hf hd).putGlobal (by simp only [State.setSp_gCap]; omega) v
  | popEmit floor v hi hf hd hv => exact (hpop 1 (by decide) hf hd).emit v
  | call floor args target nargs hi hn hf hd hl ha hv hk => exact h.enterCall hs hip hf hd hl hv hk
  | retValue r v hi hfp hfr hd hslot hv =>
    have hlt := State.hasSlot_iff.1 hslot
    have hfl : (s.putSlot (r.savedSp + 1) v).floor? = some r.savedSp := by
      rw [State.floor?_putSlot, State.floor?_frame hfp, hfr]; rfl
    exact ((h.putSlot hslot v).setSp hfl (by omega) (by simp only [State.putSlot_params]; omega)).leaveFrame hs hfr
  | ret r hi hfp hfr hd =>
    obtain ⟨-, -, -, hle, -⟩ := h.activeRecord hfr
    have hfl : s.floor? = some r.savedSp := by rw [State.floor?_frame hfp, hfr]; rfl
    exact (h.setSp hfl le_rfl (hle.trans h.spRange.2)).leaveFrame hs hfr

/-- An instruction that leaves the engine Running leaves `ip` in the program. -/
theorem State.Effect.ip_le (he : s.Effect i t) (h : s.Inv) (hip : s.ip ≤ s.codeLen) (hr : t.runState = .running) :
    t.ip ≤ t.codeLen := by
  cases he with
  | fault | halt => simp at hr
  | jump target hv => simpa using operandIndex_le_codeLen hv
  | popJump floor target hf hd hv => simpa using operandIndex_le_codeLen hv
  | call floor args target nargs hi hn hf hd hl ha hv hk => simpa using operandIndex_le_codeLen hv
  | push | alu | pop | popLocal | popGlobal | popEmit => simpa using hip
  | retValue r v hi hfp hfr hd hslot hv =>
    obtain ⟨-, -, -, -, hret⟩ := h.activeRecord hfr
    simpa using hret
  | ret r hi hfp hfr hd =>
    obtain ⟨-, -, -, -, hret⟩ := h.activeRecord hfr
    simpa using hret

theorem State.Inv.traceInstr (h : s.Inv) (i : Instr) : (s.traceInstr i).Inv := by
  unfold State.traceInstr
  split_ifs with htr
  · exact { h with traceForm := fun hoff => absurd (htr.symm.trans hoff) (by decide) }
  · exact h

/-- Decode keeps the invariant (R80). -/
theorem State.Inv.decoded (h : s.Inv) (hr : s.runState = .running) (hend : s.ip + i.size ≤ s.codeLen) :
    (s.decoded i).Inv := by
  have hs : s.runState ≠ .faulted := by rw [hr]; decide
  exact ((h.setCur hs s.ip).setIp hs hend).traceInstr i

/-- What the invariant says after the first fetch: `ip` of a Running engine is in the program (R49 (4)). -/
def State.InvInProgram (s : State) : Prop := s.Inv ∧ (s.runState = .running → s.ip ≤ s.codeLen)

theorem step_invInProgram (h : s.Inv) (hstep : step s = .next t) : t.InvInProgram := by
  obtain ⟨hr, hcases⟩ := step_eq_next hstep
  have hs : s.runState ≠ .faulted := by rw [hr]; decide
  obtain ⟨-, rfl⟩ | ⟨-, rfl⟩ | ⟨-, e, -, rfl⟩ | ⟨hip, i, rest, hd, he⟩ := hcases
  · exact ⟨h.halt hs, fun hrun => by simp at hrun⟩
  · exact ⟨(h.setCur hs s.ip).faulted h.ipRange _, fun hrun => by simp at hrun⟩
  · exact ⟨(h.setCur hs s.ip).faulted h.ipRange _, fun hrun => by simp at hrun⟩
  · have hend := decode_size_le hd hip
    have hinv := h.decoded hr hend
    have hip' : (s.decoded i).ip ≤ (s.decoded i).codeLen := by simpa using hend
    have heff := exec_effect he
    exact ⟨heff.inv hinv (by simpa using hr) hip' (by simpa using hip.le), heff.ip_le hinv hip'⟩

/-- Settles O44. -/
theorem stepKeepsTheInvariant : Obligations.StepKeepsTheInvariant :=
  fun _ _ h hstep => (step_invInProgram h hstep).1

/-! ### Runs -/

theorem core_run_succ {n : Nat} (h : core.run (n + 1) s = .next u) :
    ∃ t, step s = .next t ∧ core.run n t = .next u := by
  simp only [Host.Core.run] at h
  split at h
  · exact ⟨_, ‹_›, h⟩
  · cases h
  · cases h

/-- What every step keeps holds at the end of every run. -/
theorem core_run_induction {P : State → Prop} (hP : ∀ s t, P s → step s = .next t → P t) {n : Nat} (hs : P s)
    (h : core.run n s = .next u) : P u := by
  induction n generalizing s with
  | zero => cases h; exact hs
  | succ n ih =>
    obtain ⟨t, hstep, hrun⟩ := core_run_succ h
    exact ih (hP s t hs hstep) hrun

/-- Settles O45, by the steps of the run: each keeps the invariant, and the first brings `ip` into the program. -/
theorem invariantsHoldThroughoutARun : Obligations.InvariantsHoldThroughoutARun := by
  intro s t u code entry gCap trace n h hst hrun
  have ht := startKeepsTheInvariant s t code entry gCap trace h hst
  have hu := core_run_induction stepKeepsTheInvariant ht hrun
  obtain ⟨floor, hf, hlow, hle⟩ := hu.floor_exists
  refine ⟨hu, ⟨floor, hf, hlow, hle, hu.spRange.2⟩, fun hn => ?_⟩
  obtain ⟨m, rfl⟩ := Nat.exists_eq_add_of_le' hn
  obtain ⟨t', hstep, hrun'⟩ := core_run_succ hrun
  have ht' := step_invInProgram ht hstep
  exact (core_run_induction (fun _ _ hP => step_invInProgram hP.1) ht' hrun').2

end Sys2Proof.Machine

/-!
What one step shows of the state: the decoded state and its trace record (R43, R80), STATUS (R30, R41), and the
parameters beside the engine's state (R48).
-/

namespace Sys2Proof.Machine

variable {i : Instr} {s t : State} {rest : List Word}

/-! ### The decoded state -/

/-- Decode sets `cur` and `ip` and produces the trace record, and writes nothing else (R23, R43, R80). -/
theorem State.decoded_eq (s : State) (i : Instr) : s.decoded i =
    { s with
      cur := s.ip
      ip := s.ip + i.size
      trace := if s.traceOn then s.trace ++ [((s.setCur s.ip).setIp (s.ip + i.size)).traceRecord i] else s.trace } := by
  by_cases htr : s.traceOn = true
  · rw [if_pos htr]
    exact if_pos htr
  · rw [if_neg htr]
    exact if_neg htr

/-- Settles O6. -/
theorem stepRunsTheDecodedInstruction : Obligations.StepRunsTheDecodedInstruction := by
  intro s i rest hr hip hd
  refine ⟨s.decoded i, step_of_decode hr hip hd, State.decoded_cur s i, ?_, ?_⟩
  · rw [State.decoded_ip, Instr.size, Nat.add_assoc]
  · rw [State.decoded_eq]

@[simp] theorem Memory.length_toWords (m : Memory) (n : Nat) : (m.toWords n).length = n := by simp [Memory.toWords]

theorem Memory.getElem?_toWords (m : Memory) {j n : Nat} (h : j < n) : (m.toWords n)[j]? = some (m.read j) := by
  simp [Memory.toWords, h]

/-- Settles O7. -/
theorem traceRecordShowsTheDecodedState : Obligations.TraceRecordShowsTheDecodedState := by
  intro s i rest hr hip hd
  refine ⟨s.decoded i, step_of_decode hr hip hd, State.decoded_ip s i, State.decoded_stack s i, fun htr => ?_,
    fun htr => ⟨((s.setCur s.ip).setIp (s.ip + i.size)).traceRecord i, ?_, rfl, rfl, rfl, rfl, ?_, fun j hj => ?_, ?_,
      fun j hj => ?_⟩⟩
  · simp [State.decoded_eq, htr]
  · simp [State.decoded_eq, htr]
  · exact Memory.length_toWords _ _
  · exact Memory.getElem?_toWords _ (by simp only [State.setIp_sp, State.setCur_sp]; omega)
  · exact Memory.length_toWords _ _
  · exact Memory.getElem?_toWords _ hj

/-! ### STATUS -/

/-- Settles O39, by what a step and then an instruction can do to STATUS. -/
theorem statusChangesOnlyAtTerminalEvents : Obligations.StatusChangesOnlyAtTerminalEvents := by
  intro s t h
  obtain ⟨-, ⟨hip, rfl⟩ | ⟨-, rfl⟩ | ⟨-, e, -, rfl⟩ | ⟨-, i, rest, hd, he⟩⟩ := step_eq_next h
  · exact .inr (.inl ⟨rfl, rfl, rfl, .inl hip⟩)
  · exact .inr (.inr ⟨rfl, Option.some_ne_none _, rfl, rfl⟩)
  · exact .inr (.inr ⟨rfl, Option.some_ne_none _, rfl, rfl⟩)
  · obtain ⟨k, rfl⟩ | ⟨rfl, rfl⟩ | hsame := (exec_effect he).faulted_or_halt_or_sameStatus
    · exact .inr (.inr ⟨rfl, Option.some_ne_none _, State.decoded_cur s i, State.decoded_cur s i⟩)
    · refine .inr (.inl ⟨rfl, ?_, ?_, .inr (codeAt?_of_decode hd)⟩) <;> simp
    · exact .inl (by simpa [State.SameStatus] using hsame)

theorem RunState.code_lt (r : RunState) : r.code < 4 := by cases r <;> decide

theorem faultKindCode_lt (k : Option FaultKind) : faultKindCode k < 8 := by
  cases k with
  | none => decide
  | some k => cases k <;> decide

/-- The two codes fit below the reserved bits, so the status word is their sum as a number (R41). -/
theorem State.statusPort_toNat (s : State) :
    s.statusPort.toNat = s.runState.code + 4 * faultKindCode s.faultKind := by
  have hr := s.runState.code_lt
  have hk := faultKindCode_lt s.faultKind
  rw [State.statusPort, BitVec.toNat_ofNat, Nat.mod_eq_of_lt (by omega)]

/-- Settles O17: two codes of 2 and 3 bits side by side, each the one its table gives. -/
theorem statusWordLayout : Obligations.StatusWordLayout := by
  intro s
  have hr := s.runState.code_lt
  have hk := faultKindCode_lt s.faultKind
  rw [State.statusPort_toNat]
  refine ⟨?_, ?_, by omega⟩
  · rw [show (s.runState.code + 4 * faultKindCode s.faultKind) % 4 = s.runState.code by omega]
    cases s.runState <;> rfl
  · rw [show (s.runState.code + 4 * faultKindCode s.faultKind) / 4 % 8 = faultKindCode s.faultKind by omega]
    cases s.faultKind with
    | none => rfl
    | some k => cases k <;> rfl

/-! ### The parameters of the step -/

theorem stepWith_eq (s : State) : stepWith s.params s.toEngineState =
    match step s with
    | .next t => .next t.toEngineState
    | .fault r => .fault r
    | .refused r => .refused r := rfl

/-- A state is its engine's state and its parameters (log 1). -/
theorem State.eq_of_toEngineState_eq (he : s.toEngineState = t.toEngineState) (hp : s.params = t.params) : s = t := by
  rw [← s.toEngineState_withParams, he, hp, t.toEngineState_withParams]

/-- Settles O50: the step on the pair keeps the parameters, so it is the step on the engine's state beside them. -/
theorem stepTakesTheParameters : Obligations.StepTakesTheParameters := by
  intro s
  rw [stepWith_eq]
  cases hstep : step s with
  | next u =>
    have hu : u.params = s.params := (stepKeepsTheRunInputs s u hstep).1
    refine ⟨fun t => ⟨?_, ?_⟩, fun f => by simp⟩
    · rintro ⟨rfl⟩
      exact ⟨rfl, hu⟩
    · rintro ⟨he, hp⟩
      exact congrArg _ (State.eq_of_toEngineState_eq (Host.Outcome.next.inj he) (hu.trans hp.symm))
  | fault r => exact ⟨fun t => by simp, fun f => by simp⟩
  | refused r => exact ⟨fun t => by simp, fun f => by simp⟩

end Sys2Proof.Machine

/-!
What a step cannot observe: instructions read the state through one view, so two states with the same view take the
same branches and make the same updates. The trace (R43, R211) and the unoccupied slots and records (R28, R37) are
outside that view.
-/

namespace Sys2Proof.Machine

variable {i : Instr} {s t s' : State} {R : State → State → Prop} {r r' : Result}

/-! ### The view of an instruction -/

/-- What an instruction reads is the same: the limits, CODE, the registers, GLOBAL, the stack up to `sp` and the frame
records up to `fp`. -/
structure State.SameView (s t : State) : Prop where
  stackCap : t.params.stackCap = s.params.stackCap
  frameLocals : t.params.frameLocals = s.params.frameLocals
  maxFrames : t.params.maxFrames = s.params.maxFrames
  code : t.code = s.code
  gCap : t.gCap = s.gCap
  ip : t.ip = s.ip
  sp : t.sp = s.sp
  fp : t.fp = s.fp
  globals : t.globals = s.globals
  slots : ∀ j ≤ s.sp, t.slot? j = s.slot? j
  frames : ∀ k ≤ s.fp, t.frame? k = s.frame? k

/-- Two outcomes are the same, their next states up to `R`. -/
def resultsRelated (R : State → State → Prop) : Result → Result → Prop
  | .next s, .next t => R s t
  | .fault a, .fault b => a = b
  | .refused a, .refused b => a = b
  | _, _ => False

theorem resultsRelated.next (h : resultsRelated R r r') (hr : r = .next s) : ∃ t, r' = .next t ∧ R s t := by
  subst hr
  cases r' with
  | next t => exact ⟨t, rfl, h⟩
  | fault => cases h
  | refused => cases h

/-- `R` holds of `s` and `t` after each of the updates instructions make (the shapes of `State.Effect`), made to both
alike. -/
structure State.UpdatesRelated (R : State → State → Prop) (s t : State) : Prop where
  fault : ∀ k, R (s.faulted k) (t.faulted k)
  halt : R s.halt t.halt
  jump : ∀ a, R (s.setIp a) (t.setIp a)
  put : ∀ j v, j ≤ s.sp + 1 → s.hasSlot j = true → R ((s.setSp j).putSlot j v) ((t.setSp j).putSlot j v)
  pop : R (s.setSp (s.sp - 1)) (t.setSp (s.sp - 1))
  popJump : ∀ a, R ((s.setSp (s.sp - 1)).setIp a) ((t.setSp (s.sp - 1)).setIp a)
  popLocal : ∀ r a v, s.frame? s.fp = some r →
    R ((s.setSp (s.sp - 1)).putLocal r a v) ((t.setSp (s.sp - 1)).putLocal r a v)
  popGlobal : ∀ a v, R ((s.setSp (s.sp - 1)).putGlobal a v) ((t.setSp (s.sp - 1)).putGlobal a v)
  popEmit : ∀ v, R ((s.setSp (s.sp - 1)).emit v) ((t.setSp (s.sp - 1)).emit v)
  call : ∀ args target, s.hasFrame (s.fp + 1) = true → R (s.enterCall args target) (t.enterCall args target)
  retValue : ∀ r v, s.frame? s.fp = some r → r.savedSp < s.sp → s.hasSlot (r.savedSp + 1) = true →
    R (((s.putSlot (r.savedSp + 1) v).setSp (r.savedSp + 1)).leaveFrame r)
      (((t.putSlot (r.savedSp + 1) v).setSp (r.savedSp + 1)).leaveFrame r)
  ret : ∀ r, s.frame? s.fp = some r → R ((s.setSp r.savedSp).leaveFrame r) ((t.setSp r.savedSp).leaveFrame r)

namespace State.SameView

/-! ### What is computed from the view -/

theorem hasSlot_eq (v : s.SameView t) (j : Int) : t.hasSlot j = s.hasSlot j := by
  rw [State.hasSlot, State.hasSlot, v.stackCap]

theorem hasFrame_eq (v : s.SameView t) (k : Int) : t.hasFrame k = s.hasFrame k := by
  rw [State.hasFrame, State.hasFrame, v.maxFrames]

theorem validTarget_eq (v : s.SameView t) (o : Word) : t.validTarget o = s.validTarget o := by
  rw [State.validTarget, State.validTarget, State.codeLen, State.codeLen, v.code]

theorem validLocal_eq (v : s.SameView t) (o : Word) : t.validLocal o = s.validLocal o := by
  simp only [State.validLocal, v.fp, v.frameLocals]

theorem validGlobal_eq (v : s.SameView t) (o : Word) : t.validGlobal o = s.validGlobal o := by
  simp only [State.validGlobal, v.gCap]

theorem validNargs_eq (v : s.SameView t) (o : Word) : t.validNargs o = s.validNargs o := by
  simp only [State.validNargs, v.frameLocals]

theorem depth?_eq (v : s.SameView t) : t.depth? = s.depth? := by
  simp only [State.depth?, State.floor?, v.fp, v.sp, v.frames s.fp le_rfl]

theorem slotsFrom?_eq (v : s.SameView t) {n : Nat} {j : Int} (hj : j + n ≤ s.sp + 1) :
    t.slotsFrom? j n = s.slotsFrom? j n := by
  induction n generalizing j with
  | zero => rfl
  | succ n ih => simp only [State.slotsFrom?, v.slots j (by omega), ih (j := j + 1) (by omega)]

theorem topWords?_eq (v : s.SameView t) (n : Nat) : t.topWords? n = s.topWords? n := by
  rw [State.topWords?, State.topWords?, v.sp, v.slotsFrom?_eq (by omega)]

theorem callRecord_eq (v : s.SameView t) (args : List Word) : t.callRecord args = s.callRecord args := by
  simp only [State.callRecord, v.ip, v.fp, v.sp]

/-! ### The view of slots and records after an update -/

theorem slot?_putSlot_eq (v : s.SameView t) {k : Int} (hk : s.hasSlot k = true) (w : Word) {j : Int}
    (hj : j = k ∨ j ≤ s.sp) : (t.putSlot k w).slot? j = (s.putSlot k w).slot? j := by
  rw [State.slot?_putSlot hk, State.slot?_putSlot ((v.hasSlot_eq k).trans hk)]
  exact ite_congr rfl (fun _ => rfl) fun hne => v.slots j (hj.resolve_left hne)

theorem frame?_putLocal_eq (v : s.SameView t) {r : FrameRecord} (hr : s.frame? s.fp = some r) (a : Nat) (w : Word)
    {k : Int} (hk : k ≤ s.fp) : (t.putLocal r a w).frame? k = (s.putLocal r a w).frame? k := by
  have hfp := (State.frame?_eq_some.1 hr).1
  rw [State.frame?_putLocal hfp, State.frame?_putLocal (by rwa [v.fp, v.hasFrame_eq]), v.fp]
  exact ite_congr rfl (fun _ => rfl) fun _ => v.frames k hk

theorem frame?_enterCall_eq (v : s.SameView t) (hfr : s.hasFrame (s.fp + 1) = true) (args : List Word)
    (target : Word) {k : Int} (hk : k ≤ s.fp + 1) :
    (t.enterCall args target).frame? k = (s.enterCall args target).frame? k := by
  rw [State.frame?_enterCall hfr, State.frame?_enterCall (by rwa [v.fp, v.hasFrame_eq]), v.fp, v.callRecord_eq]
  exact ite_congr rfl (fun _ => rfl) fun hne => v.frames k (by omega)

theorem frame?_leaveFrame_eq (v : s.SameView t) {r : FrameRecord} (hr : s.frame? s.fp = some r) {k : Int}
    (hk : k ≤ s.fp) : (t.leaveFrame r).frame? k = (s.leaveFrame r).frame? k := by
  have hfp := (State.frame?_eq_some.1 hr).1
  rw [State.frame?_leaveFrame hfp, State.frame?_leaveFrame (by rwa [v.fp, v.hasFrame_eq]), v.fp]
  exact ite_congr rfl (fun _ => rfl) fun _ => v.frames k hk

/-! ### The checks and reads take the same branch -/

theorem check_related (hu : s.UpdatesRelated R t) (b : Bool) (k : FaultKind) (h : resultsRelated R r r') :
    resultsRelated R (if b then r else s.raise k) (if b then r' else t.raise k) := by
  cases b with
  | true => exact h
  | false => exact hu.fault k

theorem needTarget_related (v : s.SameView t) (hu : s.UpdatesRelated R t) (o : Word) (h : resultsRelated R r r') :
    resultsRelated R (s.needTarget o r) (t.needTarget o r') := by
  rw [State.needTarget, State.needTarget, v.validTarget_eq]
  exact check_related hu _ _ h

theorem needLocal_related (v : s.SameView t) (hu : s.UpdatesRelated R t) (o : Word) (h : resultsRelated R r r') :
    resultsRelated R (s.needLocal o r) (t.needLocal o r') := by
  rw [State.needLocal, State.needLocal, v.validLocal_eq]
  exact check_related hu _ _ h

theorem needGlobal_related (v : s.SameView t) (hu : s.UpdatesRelated R t) (o : Word) (h : resultsRelated R r r') :
    resultsRelated R (s.needGlobal o r) (t.needGlobal o r') := by
  rw [State.needGlobal, State.needGlobal, v.validGlobal_eq]
  exact check_related hu _ _ h

theorem needNargs_related (v : s.SameView t) (hu : s.UpdatesRelated R t) (o : Word) (h : resultsRelated R r r') :
    resultsRelated R (s.needNargs o r) (t.needNargs o r') := by
  rw [State.needNargs, State.needNargs, v.validNargs_eq]
  exact check_related hu _ _ h

theorem needDepth_related (v : s.SameView t) (hu : s.UpdatesRelated R t) (n : Int) (h : resultsRelated R r r') :
    resultsRelated R (s.needDepth n r) (t.needDepth n r') := by
  rw [State.needDepth, State.needDepth, v.depth?_eq]
  cases s.depth? with
  | none => rfl
  | some d =>
    dsimp only
    split_ifs
    · exact hu.fault _
    · exact h

theorem withSlot_related (v : s.SameView t) {j : Int} (hj : j ≤ s.sp) {f g : Word → Result}
    (h : ∀ w, s.slot? j = some w → resultsRelated R (f w) (g w)) :
    resultsRelated R (s.withSlot j f) (t.withSlot j g) := by
  rw [State.withSlot, State.withSlot, v.slots j hj]
  cases hw : s.slot? j with
  | none => rfl
  | some w => exact h w hw

theorem withFrame_related (v : s.SameView t) {f g : FrameRecord → Result}
    (h : ∀ r, s.frame? s.fp = some r → resultsRelated R (f r) (g r)) :
    resultsRelated R (s.withFrame f) (t.withFrame g) := by
  rw [State.withFrame, State.withFrame, v.fp, v.frames s.fp le_rfl]
  cases hr : s.frame? s.fp with
  | none => rfl
  | some r => exact h r hr

theorem pop_related (v : s.SameView t) (hu : s.UpdatesRelated R t) {f g : Word → State → Result}
    (h : ∀ w, resultsRelated R (f w (s.setSp (s.sp - 1))) (g w (t.setSp (s.sp - 1)))) :
    resultsRelated R (s.pop f) (t.pop g) := by
  rw [State.pop, State.pop, v.sp]
  exact v.needDepth_related hu 1 (v.withSlot_related le_rfl fun w _ => h w)

/-! ### The instructions do the same -/

theorem push_related (v : s.SameView t) (hu : s.UpdatesRelated R t) (w : Word) :
    resultsRelated R (s.push w) (t.push w) := by
  rw [State.push, State.push, v.sp, v.stackCap, v.hasSlot_eq]
  split_ifs with hfull hslot
  · exact hu.fault _
  · exact hu.put _ w le_rfl hslot
  · rfl

theorem aluStep_related (v : s.SameView t) (hu : s.UpdatesRelated R t) (f : Word → Word → Word) :
    resultsRelated R (s.aluStep f) (t.aluStep f) := by
  rw [State.aluStep, State.aluStep, v.sp]
  exact v.needDepth_related hu 2 (v.withSlot_related le_rfl fun b _ => v.withSlot_related (by omega) fun a ha =>
    hu.put _ _ (by omega) (State.slot?_eq_some.1 ha).1)

theorem branchIf_related (v : s.SameView t) (hu : s.UpdatesRelated R t) (taken : Word → Bool) (target : Word) :
    resultsRelated R (s.branchIf taken target) (t.branchIf taken target) := by
  refine v.pop_related hu fun c => ?_
  cases taken c with
  | true => exact v.needTarget_related hu target (hu.popJump _)
  | false => exact hu.pop

theorem execCall_related (v : s.SameView t) (hu : s.UpdatesRelated R t) (target nargs : Word) :
    resultsRelated R (execCall target nargs s) (execCall target nargs t) := by
  refine v.needNargs_related hu nargs (v.needDepth_related hu _ ?_)
  rw [v.fp, v.maxFrames]
  split_ifs
  · exact hu.fault _
  refine v.needTarget_related hu target ?_
  rw [State.callBody, State.callBody, v.fp, v.hasFrame_eq, v.topWords?_eq]
  split_ifs with hk
  · cases s.topWords? (operandIndex nargs) with
    | none => rfl
    | some args => exact hu.call args target hk
  · rfl

theorem execRet_related (v : s.SameView t) (hu : s.UpdatesRelated R t) : resultsRelated R (execRet s) (execRet t) := by
  rw [execRet, execRet, v.fp]
  split_ifs
  · exact hu.fault _
  refine v.withFrame_related fun r hr => ?_
  rw [v.sp, v.hasSlot_eq]
  split_ifs with hd hslot
  · exact v.withSlot_related le_rfl fun w _ => hu.retValue r w hr hd hslot
  · exact v.withSlot_related le_rfl fun w _ => rfl
  · exact hu.ret r hr

/-- Every instruction does the same to two states with the same view. -/
theorem exec_related (v : s.SameView t) (i : Instr) (hu : s.UpdatesRelated R t) :
    resultsRelated R (exec i s) (exec i t) := by
  cases i with
  | iadd => exact v.aluStep_related hu addWords
  | isub => exact v.aluStep_related hu subWords
  | imul => exact v.aluStep_related hu mulWords
  | ilt => exact v.aluStep_related hu ltWords
  | ieq => exact v.aluStep_related hu eqWords
  | br target => exact v.needTarget_related hu target (hu.jump _)
  | brt target => exact v.branchIf_related hu wordIsTrue target
  | brf target => exact v.branchIf_related hu (fun c => !wordIsTrue c) target
  | iconst imm => exact v.push_related hu imm
  | load o => exact v.needLocal_related hu o (v.withFrame_related fun r _ => v.push_related hu _)
  | gload o =>
    refine v.needGlobal_related hu o ?_
    rw [v.globals]
    exact v.push_related hu _
  | store o =>
    exact v.needLocal_related hu o
      (v.pop_related hu fun w => v.withFrame_related fun r hr => hu.popLocal r _ w hr)
  | gstore o => exact v.needGlobal_related hu o (v.pop_related hu fun w => hu.popGlobal _ w)
  | print =>
    rw [exec, exec, execPrint, execPrint]
    exact v.pop_related hu fun w => hu.popEmit w
  | pop =>
    refine v.needDepth_related hu 1 ?_
    rw [v.sp]
    exact hu.pop
  | call target nargs => exact v.execCall_related hu target nargs
  | ret => exact v.execRet_related hu
  | halt => exact hu.halt

end State.SameView

/-- Fetch and Decode take the same branch in two states with the same `ip`, CODE and run state, so two steps do the
same when the fetch's own ends and the decoded instruction do. -/
theorem step_related (hrun : t.runState = s.runState) (hcode : t.code = s.code) (hip : t.ip = s.ip)
    (hhalt : R s.halt t.halt) (hfault : ∀ k, R ((s.setCur s.ip).faulted k) ((t.setCur s.ip).faulted k))
    (hexec : ∀ i rest, s.runState = .running → s.ip < s.codeLen → decode (s.code.drop s.ip) = .ok i rest →
      resultsRelated R (exec i (s.decoded i)) (exec i (t.decoded i))) :
    resultsRelated R (step s) (step t) := by
  rw [step, step, State.fetch, State.fetch, hrun]
  cases hr : s.runState with
  | idle => rfl
  | halted => rfl
  | faulted => rfl
  | running =>
    have hlen : t.codeLen = s.codeLen := congrArg List.length hcode
    dsimp only
    rw [State.fetchRunning, State.fetchRunning, hip, hlen, hcode]
    split_ifs with hend hpast
    · exact hhalt
    · exact hfault _
    · cases hd : decode (s.code.drop s.ip) with
      | rejected e => exact hfault _
      | ok i rest => exact hexec i rest hr (by omega) hd

end Sys2Proof.Machine

/-! ### The trace is outside the view (R43, R211) -/

namespace Sys2Proof.Machine

variable {i : Instr} {s t s' : State} {r r' : Result}

theorem resultsSameButTrace_of_related (h : resultsRelated State.SameButTrace r r') : resultsSameButTrace r r' := by
  cases r <;> cases r' <;> exact h

theorem State.SameButTrace.sameView (h : s.SameButTrace t) : s.SameView t := by
  rw [State.SameButTrace] at h
  generalize t.traceOn = on, t.trace = records at h
  subst h
  exact ⟨rfl, rfl, rfl, rfl, rfl, rfl, rfl, rfl, rfl, fun _ _ => rfl, fun _ _ => rfl⟩

/-- No update reads or writes the trace. -/
theorem State.SameButTrace.updatesRelated (h : s.SameButTrace t) : s.UpdatesRelated State.SameButTrace t := by
  rw [State.SameButTrace] at h
  generalize t.traceOn = on, t.trace = records at h
  subst h
  constructor <;> intros <;> rfl

theorem State.SameButTrace.decoded (h : s.SameButTrace t) (i : Instr) : (s.decoded i).SameButTrace (t.decoded i) := by
  rw [State.SameButTrace] at h
  generalize t.traceOn = on, t.trace = records at h
  subst h
  rw [State.decoded_eq, State.decoded_eq]
  rfl

/-- Settles O47: the trace is outside the view, and no update touches it. -/
theorem traceChangesNothingElse : Obligations.TraceChangesNothingElse := by
  intro s t h
  have v := h.sameView
  have hcur : (s.setCur s.ip).SameButTrace (t.setCur s.ip) := congrArg (State.setCur · s.ip) h
  exact resultsSameButTrace_of_related <| step_related (congrArg (·.runState) h) v.code v.ip h.updatesRelated.halt
    hcur.updatesRelated.fault fun i _ _ _ _ => (h.decoded i).sameView.exec_related i (h.decoded i).updatesRelated

/-! ### Slots above `sp` and records above `fp` are outside the view (R28, R37) -/

theorem State.SameVisible.sameView (h : s.SameVisible t) : s.SameView t := by
  obtain ⟨ht, hslots, hframes⟩ := h
  refine ⟨?_, ?_, ?_, ?_, ?_, ?_, ?_, ?_, ?_, hslots, hframes⟩ <;> rw [ht]

/-- The slots in use hold the same words. -/
theorem State.SameVisible.stackWords_eq (h : s.SameVisible t) (hI : s.Inv) : t.stackWords = s.stackWords := by
  obtain ⟨ht, hslots, -⟩ := h
  have hsp : t.sp = s.sp := by rw [ht]
  rw [State.stackWords, State.stackWords, hsp]
  refine List.map_congr_left fun j hj => ?_
  have hj := List.mem_range.1 hj
  have hmax := hI.spRange.2
  have hslot : s.slot? j = some (s.stack.read j) :=
    State.slot?_eq_some.2 ⟨State.hasSlot_iff.2 (by omega), rfl⟩
  exact (State.slot?_eq_some.1 ((hslots j (by omega)).trans hslot)).2

/-- The trace record shows no slot above `sp`, so Decode sees no difference. -/
theorem State.SameVisible.decoded (h : s.SameVisible t) (hI : s.Inv) (i : Instr) :
    (s.decoded i).SameVisible (t.decoded i) := by
  have hwords := h.stackWords_eq hI
  obtain ⟨ht, hslots, hframes⟩ := h
  refine ⟨?_, by simpa using hslots, by simpa using hframes⟩
  generalize t.stack = stack, t.frames = frames at ht
  subst ht
  have hrec : ∀ a b, State.traceRecord ((State.setCur { s with stack := stack, frames := frames } a).setIp b) i =
      ((s.setCur a).setIp b).traceRecord i := fun a b => congrArg (fun ws : List Word =>
        ({ ((s.setCur a).setIp b).traceRecord i with stack := ws } : TraceRecord)) hwords
  rw [State.decoded_eq, State.decoded_eq, hrec]

@[simp] theorem State.frame?_leaveFrame_setSp (r : FrameRecord) (j : Int) :
    ((s.setSp j).leaveFrame r).frame? = (s.leaveFrame r).frame? := State.frame?_congr rfl rfl

@[simp] theorem State.frame?_leaveFrame_putSlot (r : FrameRecord) (j : Int) (w : Word) :
    ((s.putSlot j w).leaveFrame r).frame? = (s.leaveFrame r).frame? := State.frame?_congr rfl rfl

/-- Every update of an instruction writes the same to both and uncovers nothing above `sp` or `fp`; RET by the
invariant, which puts the caller's level and frame below the callee's. -/
theorem State.SameVisible.updatesRelated (h : s.SameVisible t) (hI : s.Inv) :
    s.UpdatesRelated State.SameVisible t := by
  have v := h.sameView
  obtain ⟨ht, hslots, hframes⟩ := h
  generalize t.stack = stack, t.frames = frames at ht
  subst ht
  have hpop : ∀ j ≤ s.sp - 1, State.slot? { s with stack := stack, frames := frames } j = s.slot? j :=
    fun j hj => hslots j (by omega)
  constructor
  case fault => exact fun _ => ⟨rfl, hslots, hframes⟩
  case halt => exact ⟨rfl, hslots, hframes⟩
  case jump => exact fun _ => ⟨rfl, hslots, hframes⟩
  case put =>
    intro k w hle hk
    refine ⟨rfl, fun j hj => v.slot?_putSlot_eq hk w ?_, hframes⟩
    simp only [State.putSlot_sp, State.setSp_sp] at hj
    omega
  case pop => exact ⟨rfl, hpop, hframes⟩
  case popJump => exact fun _ => ⟨rfl, hpop, hframes⟩
  case popLocal => exact fun r a w hr => ⟨rfl, hpop, fun k hk => v.frame?_putLocal_eq hr a w hk⟩
  case popGlobal => exact fun _ _ => ⟨rfl, hpop, hframes⟩
  case popEmit => exact fun _ => ⟨rfl, hpop, hframes⟩
  case call =>
    intro args target hk
    refine ⟨rfl, fun j hj => hslots j ?_, fun k hk' => v.frame?_enterCall_eq hk args target hk'⟩
    rw [State.enterCall_sp] at hj
    omega
  case retValue =>
    intro r w hr hd hk
    obtain ⟨-, hsaved, -, -, -⟩ := hI.activeRecord hr
    refine ⟨rfl, fun j hj => ?_, fun k hk' => ?_⟩
    · rw [State.leaveFrame_sp, State.setSp_sp] at hj
      simpa using v.slot?_putSlot_eq hk w (by omega)
    · rw [State.leaveFrame_fp] at hk'
      simpa using v.frame?_leaveFrame_eq hr (by omega)
  case ret =>
    intro r hr
    obtain ⟨-, hsaved, -, hle, -⟩ := hI.activeRecord hr
    refine ⟨rfl, fun j hj => ?_, fun k hk' => ?_⟩
    · rw [State.leaveFrame_sp, State.setSp_sp] at hj
      simpa using hslots j (hj.trans hle)
    · rw [State.leaveFrame_fp] at hk'
      simpa using v.frame?_leaveFrame_eq hr (by omega)

/-- Settles O48: what is above `sp` and `fp` is outside the view, and no update uncovers it. -/
theorem unoccupiedSlotsAreUnobservable : Obligations.UnoccupiedSlotsAreUnobservable := by
  intro s t s' hI h hstep
  have v := h.sameView
  have hrun : t.runState = s.runState := congrArg (·.runState) h.1
  have hu := h.updatesRelated hI
  refine resultsRelated.next (step_related hrun v.code v.ip hu.halt (fun k => ?_) fun i rest hr hip hd => ?_) hstep
  · exact ⟨congrArg (fun u : State => (u.setCur s.ip).faulted k) h.1, h.2⟩
  · have hdec := h.decoded hI i
    exact hdec.sameView.exec_related i (hdec.updatesRelated (hI.decoded hr (decode_size_le hd hip)))

end Sys2Proof.Machine

/-!
The memory family (spec/20_memory.md): which instruction writes which space (R50, R51, R53).
-/

namespace Sys2Proof.Machine

variable {i : Instr} {s t : State}

/-- The frame record an instruction with the opcode word `w` may write: the active one for STORE and RET, the one above
it for CALL (R50, R53). -/
def State.recordWritten? (s : State) (w : Option Word) : Option Int :=
  if w = some 12 ∨ w = some 17 then some s.fp else if w = some 16 then some (s.fp + 1) else none

/-- Of GLOBAL, OUT, the frame records, `fp` and CODE, `t` differs from `s` at most in what an instruction with the
opcode word `w` may write (R50, R51, R53). -/
structure State.WritesOnlySpacesOf (w : Option Word) (s t : State) : Prop where
  globals : w ≠ some 13 → t.globals = s.globals
  out : w ≠ some 14 → t.out = s.out
  frames : ∀ k, s.recordWritten? w ≠ some k → t.frame? k = s.frame? k
  fp : w ≠ some 16 → w ≠ some 17 → t.fp = s.fp
  code : t.code = s.code

namespace State.WritesOnlySpacesOf

variable {w : Option Word}

/-- What writes none of the spaces is within the bounds of every opcode word. -/
theorem of_same (hg : t.globals = s.globals) (ho : t.out = s.out) (hf : t.frame? = s.frame?) (hfp : t.fp = s.fp)
    (hc : t.code = s.code) : s.WritesOnlySpacesOf w t where
  globals _ := hg
  out _ := ho
  frames k _ := congrFun hf k
  fp _ _ := hfp
  code := hc

/-- Decode writes none of the spaces, so what an instruction writes since then it writes since the fetch. -/
theorem of_decoded (h : (s.decoded i).WritesOnlySpacesOf w t) : s.WritesOnlySpacesOf w t where
  globals hw := by simpa using h.globals hw
  out hw := by simpa using h.out hw
  frames k hk := by simpa using h.frames k (by simpa [State.recordWritten?] using hk)
  fp hcall hret := by simpa using h.fp hcall hret
  code := by simpa using h.code

/-- A step within the bounds of `w` leaves every frame record when `w` is none of STORE, CALL and RET. -/
theorem sameFrames (h : s.WritesOnlySpacesOf w t) (hstore : w ≠ some 12) (hcall : w ≠ some 16) (hret : w ≠ some 17) :
    s.SameFrames t :=
  fun k => h.frames k (by rw [State.recordWritten?, if_neg (not_or.2 ⟨hstore, hret⟩), if_neg hcall]; nofun)

/-- The frame records but the one `w` may write are as they were. -/
theorem sameFramesBut (h : s.WritesOnlySpacesOf w t) {k : Int} (hk : s.recordWritten? w = some k) :
    s.SameFramesBut t k :=
  fun j hj => h.frames j (by simpa [hk] using hj.symm)

end State.WritesOnlySpacesOf

/-- RET's leaving of a frame, whatever it did to the stack, writes the active record and `fp` (R166). -/
theorem State.leaveFrame_writesOnlySpacesOf {r : FrameRecord} {sp : Int} {stack : Memory}
    (hk : s.hasFrame s.fp = true) :
    s.WritesOnlySpacesOf (some 17) (State.leaveFrame { s with sp := sp, stack := stack } r) where
  globals _ := rfl
  out _ := rfl
  frames k hne := (State.frame?_leaveFrame (s := { s with sp := sp, stack := stack }) hk r k).trans
    (if_neg fun e => hne (congrArg some e.symm))
  fp _ hret := absurd rfl hret
  code := rfl

/-- Each instruction writes only the spaces its opcode may write. -/
theorem State.Effect.writesOnlySpacesOf (h : s.Effect i t) :
    s.WritesOnlySpacesOf (some (BitVec.ofNat 32 i.opcode.value)) t := by
  cases h with
  | fault | halt | jump | push | alu | pop | popJump => exact .of_same rfl rfl rfl rfl rfl
  | popGlobal floor o v hi =>
    subst hi
    exact { globals := fun h => absurd rfl h, out := fun _ => rfl, frames := fun _ _ => rfl, fp := fun _ _ => rfl,
            code := rfl }
  | popEmit floor v hi =>
    subst hi
    exact { globals := fun _ => rfl, out := fun h => absurd rfl h, frames := fun _ _ => rfl, fp := fun _ _ => rfl,
            code := rfl }
  | popLocal floor r o v hi hf hd hr =>
    subst hi
    have hput := State.frame?_putLocal (s := s.setSp (s.sp - 1)) (State.frame?_eq_some.1 hr).1 r (operandIndex o) v
    exact { globals := fun _ => rfl, out := fun _ => rfl, fp := fun _ _ => rfl, code := rfl
            frames := fun k hne => (hput k).trans (if_neg fun e => hne (congrArg some e.symm)) }
  | call floor args target nargs hi hn hf hd hl ha hv hk =>
    subst hi
    have hput := State.frame?_enterCall hk args target
    exact { globals := fun _ => rfl, out := fun _ => rfl, fp := fun h => absurd rfl h, code := rfl
            frames := fun k hne => (hput k).trans (if_neg fun e => hne (congrArg some e.symm)) }
  | retValue r v hi hfp hr =>
    subst hi
    exact State.leaveFrame_writesOnlySpacesOf (State.frame?_eq_some.1 hr).1
  | ret r hi hfp hr =>
    subst hi
    exact State.leaveFrame_writesOnlySpacesOf (State.frame?_eq_some.1 hr).1

/-- A step writes only the spaces that the word at `ip` may write, and none by a halt at the end, a fetch fault or a
decode fault. -/
theorem step_writesOnlySpacesOf (h : step s = .next t) : s.WritesOnlySpacesOf (s.codeAt? s.ip) t := by
  obtain ⟨-, ⟨-, rfl⟩ | ⟨-, rfl⟩ | ⟨-, e, -, rfl⟩ | ⟨-, i, rest, hd, he⟩⟩ := step_eq_next h
  · exact .of_same rfl rfl rfl rfl rfl
  · exact .of_same rfl rfl rfl rfl rfl
  · exact .of_same rfl rfl rfl rfl rfl
  · rw [codeAt?_of_decode hd]
    exact (exec_effect he).writesOnlySpacesOf.of_decoded

/-- Settles O40: the clauses are read off the spaces that the word at `ip` may write. -/
theorem eachSpaceHasItsWriters : Obligations.EachSpaceHasItsWriters := by
  intro s t h
  have hw := step_writesOnlySpacesOf h
  refine ⟨fun hne a => by rw [hw.globals hne], hw.out, hw.sameFrames, hw.fp, fun e => ?_, fun e => ?_, fun e => ?_,
    hw.code⟩
  all_goals exact hw.sameFramesBut (by rw [e]; rfl)

end Sys2Proof.Machine

/-!
The encoding family (spec/30_encoding.md), the decoder: it is the left inverse of the encoder (R70 to R76), and what it
rejects by name (R83, R86).
-/

namespace Sys2Proof

variable {w : Word} {ws rest : List Word} {i : Instr}

/-- The words of an instruction decode to it, whatever follows (R71, R80). -/
theorem decode_encode (i : Instr) (rest : List Word) : decode (encode i ++ rest) = .ok i rest := by
  cases i with
  | iadd => exact Laws.RoundTrip.iadd rest
  | isub => exact Laws.RoundTrip.isub rest
  | imul => exact Laws.RoundTrip.imul rest
  | ilt => exact Laws.RoundTrip.ilt rest
  | ieq => exact Laws.RoundTrip.ieq rest
  | br target => exact Laws.RoundTrip.br target rest
  | brt target => exact Laws.RoundTrip.brt target rest
  | brf target => exact Laws.RoundTrip.brf target rest
  | iconst imm => exact Laws.RoundTrip.iconst imm rest
  | load offset => exact Laws.RoundTrip.load offset rest
  | gload index => exact Laws.RoundTrip.gload index rest
  | store offset => exact Laws.RoundTrip.store offset rest
  | gstore index => exact Laws.RoundTrip.gstore index rest
  | print => exact Laws.RoundTrip.print rest
  | pop => exact Laws.RoundTrip.pop rest
  | call target nargs => exact Laws.RoundTrip.call target nargs rest
  | ret => exact Laws.RoundTrip.ret rest
  | halt => exact Laws.RoundTrip.halt rest

/-- Settles O2: what the decoder accepts begins with the words it was read from, and the round trip gives the rest. -/
theorem decodeAcceptsExactlyTheEncodings : Obligations.DecodeAcceptsExactlyTheEncodings := by
  intro ws i rest
  constructor
  · exact eq_encode_of_decode
  · rintro rfl
    exact decode_encode i rest

/-- Settles O1: the accepted words are encodings, and the opcode table or the operand count refuses the others. -/
theorem decodeReadsTheOpcodeMap : Obligations.DecodeReadsTheOpcodeMap :=
  ⟨decode_encode .iadd [], decode_encode .ieq [5], decode_encode (.br (-1)) [], decode_encode (.iconst 0x80000000) [],
    decode_encode (.gstore 2) [18], decode_encode .print [], decode_encode (.call 0 2) [], decode_encode .halt [],
    by decide, by decide, by decide, by decide, by decide⟩

/-- An opcode's own value selects it (R72, R84). -/
theorem opcodeOfWord_value (op : Opcode) : opcodeOfWord (BitVec.ofNat 32 op.value) = some op := by
  cases op <;> rfl

/-- No word outside 1 to 18, read as a signed value, selects an opcode (R73, R86). -/
theorem opcodeOfWord_eq_none (h : s32 w < 1 ∨ 18 < s32 w) : opcodeOfWord w = none := by
  have table : ∀ row ∈ opcodeTable, 1 ≤ row.1 ∧ row.1 ≤ 18 := by decide
  refine Option.map_eq_none_iff.2 (List.find?_eq_none.2 fun row hrow => ?_)
  have := table row hrow
  simp only [decide_eq_true_eq]
  omega

/-- The operand words of an instruction are as many as its opcode's arity (R71, R84). -/
theorem Instr.length_operands (i : Instr) : i.operands.length = i.opcode.arity := by
  cases i <;> rfl

/-- The opcode is looked up before any operand is read (R86). -/
theorem decode_unknown (h : s32 w < 1 ∨ 18 < s32 w) : decode (w :: ws) = .rejected .unknownOpcode := by
  rw [decode, opcodeOfWord_eq_none h]

/-- An opcode word with too few words after it is rejected as truncated (R83). -/
theorem decode_truncated (h : ws.length < i.operands.length) :
    decode (BitVec.ofNat 32 i.opcode.value :: ws) = .rejected .truncated := by
  rw [i.length_operands] at h
  rw [decode, opcodeOfWord_value]
  exact if_pos h

end Sys2Proof

/-!
Fetch and Decode as equations of the step: what each of their ends makes of the step (R78 to R83, R86).
-/

namespace Sys2Proof.Machine

variable {s t : State} {w : Word} {e : DecodeError}

/-! ### No step unless Running -/

theorem step_of_idle (h : s.runState = .idle) : step s = .fault .engineIdle := by
  rw [step, State.fetch, h]

theorem step_of_halted (h : s.runState = .halted) : step s = .fault .engineHalted := by
  rw [step, State.fetch, h]

theorem step_of_faulted (h : s.runState = .faulted) : step s = .fault .engineFaulted := by
  rw [step, State.fetch, h]

/-- A Running engine has no result (R209, R210). -/
theorem State.result?_of_running (h : s.runState = .running) : s.result? = none := by
  rw [State.result?, h]

/-- Settles O10. -/
theorem noStepUnlessRunning : Obligations.NoStepUnlessRunning :=
  fun _ => ⟨step_of_idle, step_of_halted, step_of_faulted, State.result?_of_running⟩

/-! ### The ends of Fetch and Decode -/

theorem step_of_fetchRunning_done {r : Result} (hr : s.runState = .running) (h : s.fetchRunning = .done r) :
    step s = r := by
  rw [step, fetch_running hr, h]

theorem step_at_end (hr : s.runState = .running) (hip : s.ip = s.codeLen) : step s = .next s.halt :=
  step_of_fetchRunning_done hr (if_pos hip)

theorem step_past_end (hr : s.runState = .running) (hip : s.codeLen < s.ip) :
    step s = .next ((s.setCur s.ip).faulted .programBoundsError) :=
  step_of_fetchRunning_done hr ((if_neg hip.ne').trans (if_pos hip))

theorem step_of_rejected (hr : s.runState = .running) (hip : s.ip < s.codeLen)
    (hd : decode (s.code.drop s.ip) = .rejected e) :
    step s = .next ((s.setCur s.ip).faulted (decodeFaultKind e)) := by
  refine step_of_fetchRunning_done hr ?_
  rw [State.fetchRunning, if_neg hip.ne, if_neg hip.not_gt, hd]
  rfl

/-- The decoder is given the word at `ip` and the words after it. -/
theorem drop_of_codeAt? (h : s.codeAt? s.ip = some w) :
    s.ip < s.codeLen ∧ s.code.drop s.ip = w :: s.code.drop (s.ip + 1) := by
  obtain ⟨hip, rfl⟩ := List.getElem?_eq_some_iff.1 h
  exact ⟨hip, List.drop_eq_getElem_cons hip⟩

/-- Settles O3. -/
theorem unknownOpcodeWordFaults : Obligations.UnknownOpcodeWordFaults := by
  intro s w hr hw hout
  obtain ⟨hip, hdrop⟩ := drop_of_codeAt? hw
  exact step_of_rejected hr hip (hdrop ▸ decode_unknown hout)

/-- Settles O4: the opcode word is there, and fewer words follow it than the instruction has operands. -/
theorem truncatedInstructionFaults : Obligations.TruncatedInstructionFaults := by
  intro s i hr hip hw hend
  obtain ⟨-, hdrop⟩ := drop_of_codeAt? hw
  have hshort : (s.code.drop (s.ip + 1)).length < i.operands.length := by
    simp only [List.length_drop, State.codeLen, Instr.size] at *
    omega
  exact step_of_rejected hr hip (hdrop ▸ decode_truncated hshort)

/-- Settles O8. -/
theorem fetchAtTheEndHalts : Obligations.FetchAtTheEndHalts :=
  fun s hr hip => ⟨s.halt, step_at_end hr hip, rfl, rfl, step_of_halted rfl⟩

/-- Settles O9: the invariant lets `ip` be past the end at ENTRY alone. -/
theorem fetchPastTheEndFaults : Obligations.FetchPastTheEndFaults :=
  fun _ hr hip => ⟨⟨_, step_past_end hr hip, rfl, faultOffsetOf_toNat⟩,
    fun h => h.ipRange.resolve_left hip.not_ge⟩

/-- Settles O36: the step decodes the word 18 to HALT, whose rule writes STATUS alone. -/
theorem haltEndsTheRun : Obligations.HaltEndsTheRun := by
  refine ⟨rfl, fun s => ⟨⟨s.halt, rfl, rfl, rfl, step_of_halted rfl⟩, fun hr hw => ?_⟩⟩
  obtain ⟨hip, hdrop⟩ := drop_of_codeAt? hw
  have hd : decode (s.code.drop s.ip) = .ok .halt (s.code.drop (s.ip + 1)) := hdrop ▸ decode_encode .halt _
  refine ⟨(s.decoded .halt).halt, step_of_decode hr hip hd, rfl, ?_⟩
  simp [Instr.size, Instr.operands]

end Sys2Proof.Machine

/-!
Progress (R231): in a state that meets the invariant the slots and records an instruction reads exist, so every
instruction answers a next state, and so does every step of a Running engine.
-/

namespace Sys2Proof.Machine

variable {i : Instr} {s t : State} {r : Result}

/-- The outcome is a next state. -/
def Answers (r : Result) : Prop := ∃ t, r = .next t

/-! ### The shared operations -/

theorem raise_answers (k : FaultKind) : Answers (s.raise k) := ⟨_, rfl⟩

/-- A check that raises a fault when it fails. -/
theorem check_answers {b : Bool} {k : FaultKind} (h : b = true → Answers r) :
    Answers (if b then r else s.raise k) := by
  cases b with
  | true => exact h rfl
  | false => exact raise_answers k

theorem withSlot_answers {j : Int} {f : Word → Result} (hj : s.hasSlot j = true) (h : ∀ v, Answers (f v)) :
    Answers (s.withSlot j f) := by
  obtain ⟨t, ht⟩ := h (s.stack.read j.toNat)
  exact ⟨t, State.withSlot_eq_next.2 ⟨_, State.slot?_eq_some.2 ⟨hj, rfl⟩, ht⟩⟩

namespace State.Inv

/-- A called frame has its record (R37). -/
theorem activeRecord_exists (hI : s.Inv) (hfp : s.fp ≠ -1) : ∃ q, s.frame? s.fp = some q := by
  obtain ⟨floor, hf, -⟩ := hI.floor_exists
  rw [State.floor?_frame hfp] at hf
  obtain ⟨q, hq, -⟩ := Option.map_eq_some_iff.1 hf
  exact ⟨q, hq⟩

/-- The slot `n` below the top exists when more than `n` elements are on the stack (R49 (1)). -/
theorem hasSlot_below_top (hI : s.Inv) {n : Int} (h0 : 0 ≤ n) (hn : n ≤ s.sp) : s.hasSlot (s.sp - n) = true := by
  have := hI.spRange
  rw [State.hasSlot_iff]
  omega

theorem hasSlot_top (hI : s.Inv) (h : 0 ≤ s.sp) : s.hasSlot s.sp = true := by
  simpa using hI.hasSlot_below_top le_rfl h

theorem withFrame_answers (hI : s.Inv) (hfp : s.fp ≠ -1) {f : FrameRecord → Result}
    (h : ∀ q, s.frame? s.fp = some q → Answers (f q)) : Answers (s.withFrame f) := by
  obtain ⟨q, hq⟩ := hI.activeRecord_exists hfp
  obtain ⟨t, ht⟩ := h q hq
  exact ⟨t, State.withFrame_eq_next.2 ⟨q, hq, ht⟩⟩

/-- What follows a depth check may rely on as many elements as the check asks for: no floor is below -1. -/
theorem needDepth_answers (hI : s.Inv) {n : Int} (h : n ≤ s.sp + 1 → Answers r) : Answers (s.needDepth n r) := by
  obtain ⟨floor, hf, hlow, -⟩ := hI.floor_exists
  by_cases hd : s.sp - floor < n
  · exact ⟨_, State.needDepth_eq_next.2 ⟨floor, hf, .inl ⟨hd, rfl⟩⟩⟩
  · obtain ⟨t, ht⟩ := h (by omega)
    exact ⟨t, State.needDepth_eq_next.2 ⟨floor, hf, .inr ⟨not_lt.1 hd, ht⟩⟩⟩

theorem pop_answers (hI : s.Inv) {f : Word → State → Result} (h : ∀ v, Answers (f v (s.setSp (s.sp - 1)))) :
    Answers (s.pop f) :=
  hI.needDepth_answers fun hd => withSlot_answers (hI.hasSlot_top (by omega)) h

theorem push_answers (hI : s.Inv) (v : Word) : Answers (s.push v) := by
  have hsp := hI.spRange
  by_cases hfull : s.sp = s.params.stackCap - 1
  · exact ⟨_, State.push_eq_next.2 (.inl ⟨hfull, rfl⟩)⟩
  · exact ⟨_, State.push_eq_next.2 (.inr ⟨State.hasSlot_iff.2 (by omega), rfl⟩)⟩

/-! ### The instructions -/

theorem aluStep_answers (hI : s.Inv) (f : Word → Word → Word) : Answers (s.aluStep f) :=
  hI.needDepth_answers fun hd =>
    withSlot_answers (hI.hasSlot_top (by omega)) fun _ =>
      withSlot_answers (hI.hasSlot_below_top zero_le_one (by omega)) fun _ => ⟨_, rfl⟩

theorem branchIf_answers (hI : s.Inv) (taken : Word → Bool) (target : Word) : Answers (s.branchIf taken target) := by
  refine hI.pop_answers fun c => ?_
  cases taken c with
  | true => exact check_answers fun _ => ⟨_, rfl⟩
  | false => exact ⟨_, rfl⟩

/-- After CALL's checks the place of the new record and the slots of the arguments exist (R160). -/
theorem execCall_answers (hI : s.Inv) (target nargs : Word) : Answers (execCall target nargs s) := by
  refine check_answers fun hn => hI.needDepth_answers fun hd => ?_
  split_ifs with hmax
  · exact raise_answers _
  refine check_answers fun _ => ?_
  have hsp := hI.spRange
  have hfp := hI.fpRange
  have hc := operandIndex_cast (State.validNargs_iff.1 hn).1
  obtain ⟨args, hargs⟩ := State.topWords?_exists (s := s) (n := operandIndex nargs) (by omega) (by omega)
  exact ⟨_, State.callBody_eq_next.2 ⟨State.hasFrame_iff.2 (by omega), args, hargs, rfl⟩⟩

/-- RET finds its record; the returned value and its slot in the caller lie between the floor and `sp` (R166, R167). -/
theorem execRet_answers (hI : s.Inv) : Answers (execRet s) := by
  unfold execRet
  split_ifs with hfp
  · exact raise_answers _
  refine hI.withFrame_answers hfp fun q hq => ?_
  obtain ⟨-, -, hlow, -, -⟩ := hI.activeRecord hq
  have hsp := hI.spRange
  split_ifs with hd hslot
  · exact withSlot_answers (hI.hasSlot_top (by omega)) fun _ => ⟨_, rfl⟩
  · exact absurd (State.hasSlot_iff.2 (by omega)) hslot
  · exact ⟨_, rfl⟩

/-- Every instruction answers a next state. -/
theorem exec_answers (hI : s.Inv) (i : Instr) : Answers (exec i s) := by
  cases i with
  | iadd => exact hI.aluStep_answers addWords
  | isub => exact hI.aluStep_answers subWords
  | imul => exact hI.aluStep_answers mulWords
  | ilt => exact hI.aluStep_answers ltWords
  | ieq => exact hI.aluStep_answers eqWords
  | br target => exact check_answers fun _ => ⟨_, rfl⟩
  | brt target => exact hI.branchIf_answers wordIsTrue target
  | brf target => exact hI.branchIf_answers (fun c => !wordIsTrue c) target
  | iconst imm => exact hI.push_answers imm
  | load o =>
    exact check_answers fun ho => hI.withFrame_answers (State.validLocal_iff.1 ho).1 fun _ _ => hI.push_answers _
  | gload o => exact check_answers fun _ => hI.push_answers _
  | store o =>
    exact check_answers fun ho => hI.pop_answers fun _ =>
      hI.withFrame_answers (State.validLocal_iff.1 ho).1 fun _ _ => ⟨_, rfl⟩
  | gstore o => exact check_answers fun _ => hI.pop_answers fun _ => ⟨_, rfl⟩
  | print =>
    rw [exec, execPrint]
    exact hI.pop_answers fun _ => ⟨_, rfl⟩
  | pop => exact hI.needDepth_answers fun _ => ⟨_, rfl⟩
  | call target nargs => exact hI.execCall_answers target nargs
  | ret => exact hI.execRet_answers
  | halt => exact ⟨_, rfl⟩

end State.Inv

/-! ### The step -/

/-- Every end of Fetch and Decode is a next state, and Execute runs on a decoded state that meets the invariant. -/
theorem step_answers (hI : s.Inv) (hr : s.runState = .running) : Answers (step s) := by
  obtain hip | hip | hip := lt_trichotomy s.ip s.codeLen
  · cases hd : decode (s.code.drop s.ip) with
    | ok i rest =>
      rw [step_of_decode hr hip hd]
      exact (hI.decoded hr (decode_size_le hd hip)).exec_answers i
    | rejected e => exact ⟨_, step_of_rejected hr hip hd⟩
  · exact ⟨_, step_at_end hr hip⟩
  · exact ⟨_, step_past_end hr hip⟩

/-- Settles O46: the step answers, and STATUS stays Running or becomes Halted or Faulted. -/
theorem runningEngineAlwaysSteps : Obligations.RunningEngineAlwaysSteps := by
  intro s hI hr
  obtain ⟨t, hstep⟩ := step_answers hI hr
  refine ⟨t, hstep, ?_⟩
  obtain ⟨hrun, -⟩ | ⟨hrun, -⟩ | ⟨hrun, -⟩ := statusChangesOnlyAtTerminalEvents s t hstep
  · rw [hrun, hr]; decide
  · rw [hrun]; decide
  · rw [hrun]; decide

end Sys2Proof.Machine

/-!
The faults of Execute, said once (R190, R192): which kind an instruction raises, and which check of an operand failed
when it is a range fault. Then the operand ranges of R75 and R226.
-/

namespace Sys2Proof.Machine

variable {i : Instr} {s t : State} {r : Result} {k : FaultKind} {P : FaultKind → Prop} {o : Word}

/-- The instruction `i` may raise the kind `k` in the state `s`: a stack fault where R190 lists it, a range fault only
when the check of that operand fails. -/
inductive State.MayRaise (s : State) : Instr → FaultKind → Prop where
  | underflow {i : Instr} (hi : .stackUnderflow ∈ kindsRaisedBy i) : s.MayRaise i .stackUnderflow
  | overflow {i : Instr} (hi : .stackOverflow ∈ kindsRaisedBy i) : s.MayRaise i .stackOverflow
  | unbalanced : s.MayRaise .ret .unbalancedReturn
  | target {i : Instr} {o : Word} (hi : i.target? = some o) (ho : s.validTarget o = false) :
      s.MayRaise i .programBoundsError
  | localOffset {i : Instr} {o : Word} (hi : i = .load o ∨ i = .store o) (ho : s.validLocal o = false) :
      s.MayRaise i .invalidLocalOffset
  | nargs {target o : Word} (ho : s.validNargs o = false) : s.MayRaise (.call target o) .invalidLocalOffset
  | globalIndex {i : Instr} {o : Word} (hi : i = .gload o ∨ i = .gstore o) (ho : s.validGlobal o = false) :
      s.MayRaise i .invalidGlobalIndex

/-- A next state that shows a fault kind shows one of which `P` holds. -/
def RaisesOnly (P : FaultKind → Prop) (r : Result) : Prop := ∀ t k, r = .next t → t.faultKind = some k → P k

/-! ### The shared operations -/

theorem raisesOnly_next (h : t.faultKind = none) : RaisesOnly P (.next t) := by
  rintro _ k ⟨rfl⟩ hk
  cases h.symm.trans hk

theorem raisesOnly_raise (h : P k) : RaisesOnly P (s.raise k) := by
  rintro _ k' ⟨rfl⟩ hk
  cases hk
  exact h

theorem raisesOnly_check {b : Bool} (hk : b = false → P k) (h : RaisesOnly P r) :
    RaisesOnly P (if b then r else s.raise k) := by
  cases b with
  | true => exact h
  | false => exact raisesOnly_raise (hk rfl)

theorem raisesOnly_withSlot {j : Int} {f : Word → Result} (h : ∀ v, RaisesOnly P (f v)) :
    RaisesOnly P (s.withSlot j f) := by
  intro t k ht
  obtain ⟨v, -, hv⟩ := State.withSlot_eq_next.1 ht
  exact h v t k hv

theorem raisesOnly_withFrame {f : FrameRecord → Result} (h : ∀ q, RaisesOnly P (f q)) :
    RaisesOnly P (s.withFrame f) := by
  intro t k ht
  obtain ⟨q, -, hq⟩ := State.withFrame_eq_next.1 ht
  exact h q t k hq

theorem raisesOnly_needDepth {n : Int} (hk : P .stackUnderflow) (h : RaisesOnly P r) :
    RaisesOnly P (s.needDepth n r) := by
  intro t k ht hkind
  obtain ⟨floor, -, ⟨-, rfl⟩ | ⟨-, hr⟩⟩ := State.needDepth_eq_next.1 ht
  · cases hkind
    exact hk
  · exact h t k hr hkind

theorem raisesOnly_pop {f : Word → State → Result} (hk : P .stackUnderflow)
    (h : ∀ v, RaisesOnly P (f v (s.setSp (s.sp - 1)))) : RaisesOnly P (s.pop f) :=
  raisesOnly_needDepth hk (raisesOnly_withSlot h)

/-! ### The instructions -/

section

variable (hs : s.faultKind = none)

include hs

theorem raisesOnly_push {v : Word} (hk : P .stackOverflow) : RaisesOnly P (s.push v) := by
  intro t k ht hkind
  obtain ⟨-, rfl⟩ | ⟨-, rfl⟩ := State.push_eq_next.1 ht
  · cases hkind
    exact hk
  · cases hs.symm.trans hkind

theorem raisesOnly_aluStep {f : Word → Word → Word} (hk : P .stackUnderflow) : RaisesOnly P (s.aluStep f) :=
  raisesOnly_needDepth hk (raisesOnly_withSlot fun _ => raisesOnly_withSlot fun _ => raisesOnly_next hs)

theorem raisesOnly_branchIf {taken : Word → Bool} (hk : P .stackUnderflow)
    (ho : s.validTarget o = false → P .programBoundsError) : RaisesOnly P (s.branchIf taken o) := by
  refine raisesOnly_pop hk fun c => ?_
  cases taken c with
  | true => exact raisesOnly_check ho (raisesOnly_next hs)
  | false => exact raisesOnly_next hs

theorem execCall_mayRaise (target nargs : Word) :
    RaisesOnly (s.MayRaise (.call target nargs)) (execCall target nargs s) := by
  refine raisesOnly_check .nargs (raisesOnly_needDepth (.underflow (.tail _ (.head _))) ?_)
  split_ifs
  · exact raisesOnly_raise (.overflow (.tail _ (.tail _ (.head _))))
  refine raisesOnly_check (.target rfl) fun t k ht hkind => ?_
  obtain ⟨-, args, -, rfl⟩ := State.callBody_eq_next.1 ht
  cases hs.symm.trans hkind

theorem execRet_mayRaise : RaisesOnly (s.MayRaise .ret) (execRet s) := by
  intro t k ht hkind
  obtain ⟨-, rfl⟩ | ⟨-, q, -, ⟨-, -, v, -, rfl⟩ | ⟨-, rfl⟩⟩ := execRet_eq_next.1 ht
  · cases hkind
    exact .unbalanced
  · cases hs.symm.trans hkind
  · cases hs.symm.trans hkind

/-- What an instruction raises in Execute is what `State.MayRaise` lists. -/
theorem exec_mayRaise (i : Instr) : RaisesOnly (s.MayRaise i) (exec i s) := by
  cases i with
  | iadd => exact raisesOnly_aluStep hs (.underflow (.head _))
  | isub => exact raisesOnly_aluStep hs (.underflow (.head _))
  | imul => exact raisesOnly_aluStep hs (.underflow (.head _))
  | ilt => exact raisesOnly_aluStep hs (.underflow (.head _))
  | ieq => exact raisesOnly_aluStep hs (.underflow (.head _))
  | br target => exact raisesOnly_check (.target rfl) (raisesOnly_next hs)
  | brt target => exact raisesOnly_branchIf hs (.underflow (.head _)) (.target rfl)
  | brf target => exact raisesOnly_branchIf hs (.underflow (.head _)) (.target rfl)
  | iconst imm => exact raisesOnly_push hs (.overflow (.head _))
  | load o =>
    exact raisesOnly_check (.localOffset (.inl rfl))
      (raisesOnly_withFrame fun _ => raisesOnly_push hs (.overflow (.tail _ (.head _))))
  | gload o => exact raisesOnly_check (.globalIndex (.inl rfl)) (raisesOnly_push hs (.overflow (.tail _ (.head _))))
  | store o =>
    exact raisesOnly_check (.localOffset (.inr rfl)) (raisesOnly_pop (.underflow (.tail _ (.head _))) fun _ =>
      raisesOnly_withFrame fun _ => raisesOnly_next hs)
  | gstore o =>
    exact raisesOnly_check (.globalIndex (.inr rfl)) (raisesOnly_pop (.underflow (.tail _ (.head _))) fun _ =>
      raisesOnly_next hs)
  | print =>
    rw [exec, execPrint]
    exact raisesOnly_pop (.underflow (.head _)) fun _ => raisesOnly_next hs
  | pop => exact raisesOnly_needDepth (.underflow (.head _)) (raisesOnly_next hs)
  | call target nargs => exact execCall_mayRaise hs target nargs
  | ret => exact execRet_mayRaise hs
  | halt => exact raisesOnly_next hs

end

/-! ### Operands in range -/

section

variable (hw : i.wellFormed ⟨s.codeLen, s.gCap, s.params.frameLocals⟩ = true)

include hw

theorem validTarget_of_wellFormed (hi : i.target? = some o) : s.validTarget o = true := by
  rw [State.validTarget_iff]
  cases i with
  | br | brt | brf =>
    cases hi
    simpa [Instr.wellFormed] using hw
  | call =>
    cases hi
    simp only [Instr.wellFormed, Bool.and_eq_true, decide_eq_true_eq] at hw
    exact hw.1
  | _ => cases hi

theorem validGlobal_of_wellFormed (hi : i = .gload o ∨ i = .gstore o) : s.validGlobal o = true := by
  rw [State.validGlobal_iff]
  obtain rfl | rfl := hi <;> simpa [Instr.wellFormed] using hw

theorem validLocal_of_wellFormed (hi : i = .load o ∨ i = .store o) (hfp : 0 ≤ s.fp) : s.validLocal o = true := by
  refine State.validLocal_iff.2 ⟨by omega, ?_⟩
  obtain rfl | rfl := hi <;> simpa [Instr.wellFormed] using hw

theorem validNargs_of_wellFormed {target : Word} (hi : i = .call target o) : s.validNargs o = true := by
  subst hi
  simp only [Instr.wellFormed, Bool.and_eq_true, decide_eq_true_eq] at hw
  exact State.validNargs_iff.2 hw.2

end

/-- Settles O41: a range fault needs an operand whose check fails, and the ranges of R75 are those of the checks. -/
theorem inRangeOperandsRaiseNoRangeFault : Obligations.InRangeOperandsRaiseNoRangeFault := by
  intro i s t hw hfp hs he
  have hraise {k : FaultKind} : t.faultKind = some k → s.MayRaise i k := exec_mayRaise hs i t k he
  refine ⟨fun hk => ?_, fun hk => ?_, fun hk => ?_, fun hk => ?_⟩
  · cases hraise hk with
    | globalIndex hi ho =>
      rw [validGlobal_of_wellFormed hw hi] at ho
      cases ho
  · cases hraise hk with
    | localOffset hi ho =>
      rw [validLocal_of_wellFormed hw hi (hfp _ hi)] at ho
      cases ho
    | nargs ho =>
      rw [validNargs_of_wellFormed hw rfl] at ho
      cases ho
  · cases hraise hk with
    | target hi ho =>
      rw [validTarget_of_wellFormed hw hi] at ho
      cases ho
  · cases hraise hk

end Sys2Proof.Machine

/-!
The ALU family (spec/40_alu.md): the rule the five instructions share, and then the result each of them leaves.
-/

namespace Sys2Proof.Machine

variable {i : Instr} {f : Word → Word → Word} {s : State} {floor j : Int} {a b : Word}

/-! ### A new top of the stack -/

/-- Moving `sp` to a slot that exists and writing it leaves every other slot as it was. -/
theorem State.sameStackBut_setSp_putSlot (hj : s.hasSlot j = true) (v : Word) :
    s.SameStackBut ((s.setSp j).putSlot j v) (fun k => k = j) := by
  intro k hk
  rw [State.slot?_putSlot (s := s.setSp j) (by simpa using hj), if_neg hk, State.slot?_setSp]

/-- Moving `sp` and writing a slot changes nothing besides `sp` and `S`. -/
theorem State.sameBesidesStack_setSp_putSlot (s : State) (j : Int) (v : Word) :
    s.SameBesidesStack ((s.setSp j).putSlot j v) := by
  simp [State.SameBesidesStack, State.SameBesidesStackAndIp, State.SameCore, State.SameInputs, State.SameStatus,
    State.SameFrames, State.SameGlobals, State.SameStreams]

/-! ### The shared rule -/

theorem State.aluStep_of_underflow (hf : s.floor? = some floor) (hd : s.sp - floor < 2) :
    s.aluStep f = .next (s.faulted .stackUnderflow) :=
  State.aluStep_eq_next.2 ⟨floor, hf, .inl ⟨hd, rfl⟩⟩

theorem State.aluStep_of_operands (hf : s.floor? = some floor) (hd : 2 ≤ s.sp - floor)
    (ha : s.slot? (s.sp - 1) = some a) (hb : s.slot? s.sp = some b) :
    s.aluStep f = .next ((s.setSp (s.sp - 1)).putSlot (s.sp - 1) (f a b)) :=
  State.aluStep_eq_next.2 ⟨floor, hf, .inr ⟨hd, b, hb, a, ha, rfl⟩⟩

/-- The instruction `i` replaces the two top elements of the frame, `a` below `b`, by `f a b`, changes nothing else, and
raises StackUnderflow when the frame holds fewer than two (R100, R102, R104, R106, R108). -/
def ReplacesTopTwoBy (i : Instr) (f : Word → Word → Word) : Prop :=
  ∀ (s : State) (floor : Int), s.floor? = some floor →
    (s.sp - floor < 2 → exec i s = .next (s.faulted .stackUnderflow)) ∧
    ∀ a b, 2 ≤ s.sp - floor → s.slot? (s.sp - 1) = some a → s.slot? s.sp = some b →
      ∃ t, exec i s = .next t ∧ t.sp = s.sp - 1 ∧ t.slot? t.sp = some (f a b) ∧
        s.SameStackBut t (fun j => j = s.sp - 1) ∧ s.SameBesidesStack t

/-- An instruction whose rule is the shared ALU step follows the shared ALU law. -/
theorem replacesTopTwoBy_of_aluStep (hi : ∀ s, exec i s = s.aluStep f) : ReplacesTopTwoBy i f := by
  intro s floor hf
  rw [hi]
  refine ⟨State.aluStep_of_underflow hf, fun a b hd ha hb => ?_⟩
  have hslot : s.hasSlot (s.sp - 1) = true := (State.slot?_eq_some.1 ha).1
  refine ⟨_, State.aluStep_of_operands hf hd ha hb, rfl, ?_, State.sameStackBut_setSp_putSlot hslot _,
    State.sameBesidesStack_setSp_putSlot s _ _⟩
  exact (State.slot?_putSlot (s := s.setSp (s.sp - 1)) (by simpa using hslot) _ _).trans (if_pos rfl)

/-! ### The five instructions -/

/-- Settles O18: the wrapped sum, difference and product are what the shared step is given. -/
theorem arithmeticLeavesTheWrappedResult : Obligations.ArithmeticLeavesTheWrappedResult := by
  have hadd : ReplacesTopTwoBy .iadd addWords := replacesTopTwoBy_of_aluStep fun _ => rfl
  have hsub : ReplacesTopTwoBy .isub subWords := replacesTopTwoBy_of_aluStep fun _ => rfl
  have hmul : ReplacesTopTwoBy .imul mulWords := replacesTopTwoBy_of_aluStep fun _ => rfl
  simp only [Obligations.ArithmeticLeavesTheWrappedResult, List.forall_mem_cons]
  exact ⟨⟨rfl, hadd⟩, ⟨rfl, hsub⟩, ⟨rfl, hmul⟩, List.forall_mem_nil _⟩

/-- The equality of R109, of whole words, is that of their unsigned readings (R13). -/
theorem eqWords_eq_boolWord_u32 (a b : Word) : eqWords a b = boolWord (decide (u32 a = u32 b)) := by
  simp only [eqWords, u32, BitVec.toNat_inj]

/-- Settles O19: IEQ compares words, and two words are equal when their unsigned readings are. -/
theorem comparisonLeavesOneOrZero : Obligations.ComparisonLeavesOneOrZero := by
  have hlt : ReplacesTopTwoBy .ilt ltWords := replacesTopTwoBy_of_aluStep fun _ => rfl
  have heq : ReplacesTopTwoBy .ieq (fun a b => boolWord (decide (u32 a = u32 b))) :=
    replacesTopTwoBy_of_aluStep fun s => congrArg s.aluStep (funext₂ eqWords_eq_boolWord_u32)
  simp only [Obligations.ComparisonLeavesOneOrZero, List.forall_mem_cons]
  exact ⟨⟨rfl, hlt⟩, ⟨rfl, heq⟩, List.forall_mem_nil _⟩

end Sys2Proof.Machine

/-!
The branch family (spec/41_branch.md): BR, the rule BRT and BRF share, and the loop of a BR to itself (R126).
-/

namespace Sys2Proof.Machine

variable {i : Instr} {s t u : State} {taken : Word → Bool} {target c : Word} {floor : Int} {n : Nat}

/-! ### The target and the frame -/

theorem State.validTarget_eq_false_iff :
    s.validTarget target = false ↔ ¬(0 ≤ s32 target ∧ s32 target ≤ s.codeLen) := by
  rw [← Bool.not_eq_true, State.validTarget_iff]

/-- Writing `sp` and `ip` changes nothing besides them. With the value that stands in one of them written back, this
speaks of a write to the other alone. -/
theorem State.sameBesidesStackAndIp_setSp_setIp (s : State) (j : Int) (a : Nat) :
    s.SameBesidesStackAndIp ((s.setSp j).setIp a) := by
  simp [State.SameBesidesStackAndIp, State.SameCore, State.SameInputs, State.SameStatus, State.SameFrames,
    State.SameGlobals, State.SameStreams]

/-! ### BR -/

theorem execBr_of_inRange (hv : 0 ≤ s32 target ∧ s32 target ≤ s.codeLen) :
    exec (.br target) s = .next (s.setIp (operandIndex target)) :=
  State.needTarget_eq_next.2 (.inl ⟨State.validTarget_iff.2 hv, rfl⟩)

/-- Settles O20. -/
theorem brGoesToTheTarget : Obligations.BrGoesToTheTarget := by
  refine fun target => ⟨rfl, fun s => ?_⟩
  split_ifs with hv
  · exact ⟨_, execBr_of_inRange hv, operandIndex_cast hv.1, rfl, fun _ => rfl,
      s.sameBesidesStackAndIp_setSp_setIp s.sp _⟩
  · exact State.needTarget_eq_next.2 (.inr ⟨State.validTarget_eq_false_iff.2 hv, rfl⟩)

/-! ### The rule BRT and BRF share -/

section

variable (hf : s.floor? = some floor)

include hf

theorem State.branchIf_of_underflow (hd : s.sp - floor < 1) :
    s.branchIf taken target = .next (s.faulted .stackUnderflow) :=
  State.branchIf_eq_next.2 ⟨floor, hf, .inl ⟨hd, rfl⟩⟩

variable (hd : 1 ≤ s.sp - floor) (hc : s.slot? s.sp = some c)

include hd hc

theorem State.branchIf_of_taken (ht : taken c = true) (hv : 0 ≤ s32 target ∧ s32 target ≤ s.codeLen) :
    s.branchIf taken target = .next ((s.setSp (s.sp - 1)).setIp (operandIndex target)) :=
  State.branchIf_eq_next.2 ⟨floor, hf, .inr ⟨hd, c, hc, .inl ⟨ht, State.validTarget_iff.2 hv, rfl⟩⟩⟩

theorem State.branchIf_of_taken_outOfRange (ht : taken c = true) (hv : ¬(0 ≤ s32 target ∧ s32 target ≤ s.codeLen)) :
    s.branchIf taken target = .next (s.faulted .programBoundsError) :=
  State.branchIf_eq_next.2
    ⟨floor, hf, .inr ⟨hd, c, hc, .inr (.inl ⟨ht, State.validTarget_eq_false_iff.2 hv, rfl⟩)⟩⟩

theorem State.branchIf_of_not_taken (ht : taken c = false) :
    s.branchIf taken target = .next (s.setSp (s.sp - 1)) :=
  State.branchIf_eq_next.2 ⟨floor, hf, .inr ⟨hd, c, hc, .inr (.inr ⟨ht, rfl⟩)⟩⟩

end

/-- The instruction `i` pops a condition, raising StackUnderflow when the frame holds none, and when `taken` holds of it
checks `target` and goes there; it changes nothing else (R122, R123, R125). -/
def PopsAndBranchesWhen (i : Instr) (taken : Word → Bool) (target : Word) : Prop :=
  ∀ (s : State) (floor : Int), s.floor? = some floor →
    (s.sp - floor < 1 → exec i s = .next (s.faulted .stackUnderflow)) ∧
    ∀ c, 1 ≤ s.sp - floor → s.slot? s.sp = some c →
      (taken c = true → ¬(0 ≤ s32 target ∧ s32 target ≤ s.codeLen) →
        exec i s = .next (s.faulted .programBoundsError)) ∧
      (taken c = true → 0 ≤ s32 target → s32 target ≤ s.codeLen →
        ∃ t, exec i s = .next t ∧ (t.ip : Int) = s32 target ∧ t.sp = s.sp - 1 ∧ s.SameStack t ∧
          s.SameBesidesStackAndIp t) ∧
      (taken c = false → ∃ t, exec i s = .next t ∧ t.sp = s.sp - 1 ∧ s.SameStack t ∧ s.SameBesidesStack t)

/-- An instruction whose rule is the shared branch step follows the shared branch law. -/
theorem popsAndBranchesWhen_of_branchIf (hi : ∀ s, exec i s = s.branchIf taken target) :
    PopsAndBranchesWhen i taken target := by
  intro s floor hf
  rw [hi]
  refine ⟨State.branchIf_of_underflow hf, fun c hd hc =>
    ⟨State.branchIf_of_taken_outOfRange hf hd hc, fun htaken h0 hlen => ?_, fun hnot => ?_⟩⟩
  · exact ⟨_, State.branchIf_of_taken hf hd hc htaken ⟨h0, hlen⟩, operandIndex_cast h0, rfl, fun _ => rfl,
      s.sameBesidesStackAndIp_setSp_setIp _ _⟩
  · exact ⟨_, State.branchIf_of_not_taken hf hd hc hnot, rfl, fun _ => rfl, rfl,
      s.sameBesidesStackAndIp_setSp_setIp _ s.ip⟩

theorem wordIsTrue_iff : wordIsTrue c = true ↔ c ≠ 0 := decide_eq_true_iff

theorem wordIsTrue_eq_false_iff : wordIsTrue c = false ↔ c = 0 := by simp [wordIsTrue]

/-- Settles O21: BRT takes the shared rule with the words other than 0. -/
theorem brtBranchesOnNonzero : Obligations.BrtBranchesOnNonzero := by
  intro target
  have hlaw : PopsAndBranchesWhen (.brt target) wordIsTrue target := popsAndBranchesWhen_of_branchIf fun _ => rfl
  simp only [PopsAndBranchesWhen, wordIsTrue_iff, wordIsTrue_eq_false_iff] at hlaw
  exact ⟨rfl, hlaw⟩

/-- Settles O22: BRF takes the shared rule with the word 0. -/
theorem brfBranchesOnZero : Obligations.BrfBranchesOnZero := by
  intro target
  have hlaw : PopsAndBranchesWhen (.brf target) (fun c => !wordIsTrue c) target :=
    popsAndBranchesWhen_of_branchIf fun _ => rfl
  simp only [PopsAndBranchesWhen, Bool.not_eq_true', Bool.not_eq_false', wordIsTrue_iff, wordIsTrue_eq_false_iff]
    at hlaw
  exact ⟨rfl, hlaw⟩

/-- Settles O23: a word is 0 or not, and the one of BRT and BRF that is not taken leaves `ip` as it stands. -/
theorem exactlyOneOfBrtAndBrfIsTaken : Obligations.ExactlyOneOfBrtAndBrfIsTaken := by
  intro s floor c target hf hd hc h0 hlen
  obtain ⟨-, brtTaken, brtNot⟩ := ((brtBranchesOnNonzero target).2 s floor hf).2 c hd hc
  obtain ⟨-, brfTaken, brfNot⟩ := ((brfBranchesOnZero target).2 s floor hf).2 c hd hc
  by_cases hz : c = 0
  · obtain ⟨t, ht, htsp, -, htip, -⟩ := brtNot hz
    obtain ⟨u, hu, huip, husp, -⟩ := brfTaken hz h0 hlen
    exact ⟨t, u, ht, hu, htsp, husp, .inr ⟨hz, htip, huip⟩⟩
  · obtain ⟨t, ht, htip, htsp, -⟩ := brtTaken hz h0 hlen
    obtain ⟨u, hu, husp, -, huip, -⟩ := brfNot hz
    exact ⟨t, u, ht, hu, htsp, husp, .inl ⟨hz, htip, huip⟩⟩

/-! ### A BR to itself -/

/-- A run that begins with a step to `t` goes on as the run from `t`. -/
theorem core_run_of_step (hs : step s = .next t) (hrun : core.run n t = .next u) : core.run (n + 1) s = .next u := by
  rw [← hrun]
  simp only [Host.Core.run, core, hs]

/-- The step of a BR to itself brings `ip` back from past the instruction to it, and is Decode's work besides. -/
theorem step_of_br_self (hr : s.runState = .running) (hw : s.codeAt? s.ip = some 6)
    (ho : s.codeAt? (s.ip + 1) = some target) (hself : s32 target = s.ip) :
    step s = .next ((s.decoded (.br target)).setIp s.ip) := by
  obtain ⟨hip, hdrop⟩ := drop_of_codeAt? hw
  have hrest : s.code.drop (s.ip + 1) = target :: s.code.drop (s.ip + 1 + 1) :=
    (drop_of_codeAt? (s := s.setIp (s.ip + 1)) ho).2
  have hd : decode (s.code.drop s.ip) = .ok (.br target) (s.code.drop (s.ip + 1 + 1)) := by
    rw [hdrop, hrest]
    exact decode_encode (.br target) _
  have hv : 0 ≤ s32 target ∧ s32 target ≤ (s.decoded (.br target)).codeLen := by
    rw [State.codeLen_decoded]
    omega
  have hindex : operandIndex target = s.ip := by rw [operandIndex, hself, Int.toNat_natCast]
  rw [step_of_decode hr hip hd, execBr_of_inRange hv, hindex]

/-- Settles O24, by induction on the number of steps: after one step the same instruction is fetched again. -/
theorem branchToItselfNeverEnds : Obligations.BranchToItselfNeverEnds := by
  intro s target hr hw ho hself n
  induction n generalizing s with
  | zero => exact ⟨s, rfl, hr, rfl, rfl, rfl⟩
  | succ n ih =>
    have hstep := step_of_br_self hr hw ho hself
    obtain ⟨t, hrun, htr, hip, hsp, hout⟩ := ih ((s.decoded (.br target)).setIp s.ip) (by simpa using hr)
      (by simpa [State.codeAt?] using hw) (by simpa [State.codeAt?] using ho) hself
    exact ⟨t, core_run_of_step hstep hrun, htr, hip, by simpa using hsp, by simpa using hout⟩

end Sys2Proof.Machine

/-!
The storage family (spec/42_storage.md): ICONST, LOAD and GLOAD share the push of a word, LOAD and STORE the check of a
local offset, GLOAD and GSTORE that of a global index; and what is stored is read back (R141, R143).
-/

namespace Sys2Proof.Machine

variable {i : Instr} {s t : State} {r : FrameRecord} {res : Result} {o offset index v : Word} {n : Nat} {floor : Int}

/-! ### The operand checks -/

theorem operandIndex_eq_of_s32 (ho : s32 o = n) : operandIndex o = n := by
  rw [operandIndex, ho, Int.toNat_natCast]

theorem State.validLocal_of_s32 (hfp : s.fp ≠ -1) (ho : s32 o = n) (hn : n < s.params.frameLocals) :
    s.validLocal o = true :=
  State.validLocal_iff.2 ⟨hfp, by omega, by omega⟩

theorem State.validGlobal_of_s32 (ho : s32 o = n) (hn : n < s.gCap) : s.validGlobal o = true :=
  State.validGlobal_iff.2 ⟨by omega, by omega⟩

/-- A local offset out of range faults whatever would come after the check (R53). -/
theorem State.needLocal_of_outOfRange (h : s.fp = -1 ∨ s32 o < 0 ∨ s.params.frameLocals ≤ s32 o) :
    s.needLocal o res = .next (s.faulted .invalidLocalOffset) := by
  have hv : s.validLocal o = false := by
    rw [← Bool.not_eq_true, State.validLocal_iff]
    omega
  exact State.needLocal_eq_next.2 (.inr ⟨hv, rfl⟩)

/-- A global index out of range faults whatever would come after the check (R54). -/
theorem State.needGlobal_of_outOfRange (h : s32 o < 0 ∨ s.gCap ≤ s32 o) :
    s.needGlobal o res = .next (s.faulted .invalidGlobalIndex) := by
  have hv : s.validGlobal o = false := by
    rw [← Bool.not_eq_true, State.validGlobal_iff]
    omega
  exact State.needGlobal_eq_next.2 (.inr ⟨hv, rfl⟩)

/-! ### The push ICONST, LOAD and GLOAD share -/

/-- Where the slot above the top exists, a push leaves its word there and changes nothing else (R33). -/
theorem State.push_of_room (hs : s.hasSlot (s.sp + 1) = true) (v : Word) :
    ∃ t, s.push v = .next t ∧ t.sp = s.sp + 1 ∧ t.slot? t.sp = some v ∧
      s.SameStackBut t (fun j => j = s.sp + 1) ∧ s.SameBesidesStack t := by
  refine ⟨_, State.push_eq_next.2 (.inr ⟨hs, rfl⟩), rfl, ?_, State.sameStackBut_setSp_putSlot hs v,
    State.sameBesidesStack_setSp_putSlot s _ v⟩
  exact (State.slot?_putSlot (s := s.setSp (s.sp + 1)) (by simpa using hs) _ _).trans (if_pos rfl)

/-- The instruction `i` pushes the word `v` onto the stack of `s` and changes nothing else, and raises StackOverflow
when the stack is full (R131, R135, R138). -/
def PushesWord (i : Instr) (s : State) (v : Word) : Prop :=
  (s.sp = s.params.stackCap - 1 → exec i s = .next (s.faulted .stackOverflow)) ∧
  (-1 ≤ s.sp → s.sp < s.params.stackCap - 1 →
    ∃ t, exec i s = .next t ∧ t.sp = s.sp + 1 ∧ t.slot? t.sp = some v ∧
      s.SameStackBut t (fun j => j = s.sp + 1) ∧ s.SameBesidesStack t)

/-- An instruction that comes down to a push follows the law of the push. -/
theorem pushesWord_of_push (hi : exec i s = s.push v) : PushesWord i s v := by
  rw [PushesWord, hi]
  exact ⟨fun hfull => State.push_eq_next.2 (.inl ⟨hfull, rfl⟩),
    fun hlow hroom => State.push_of_room (State.hasSlot_iff.2 (by omega)) v⟩

theorem execLoad_of_valid (hv : s.validLocal offset = true) (hr : s.frame? s.fp = some r) :
    exec (.load offset) s = s.push (r.locals.read (operandIndex offset)) := by
  simp only [exec, execLoad, State.needLocal, hv, if_true, State.withFrame, hr]

theorem execGload_of_valid (hv : s.validGlobal index = true) :
    exec (.gload index) s = s.push (s.globals.read (operandIndex index)) :=
  if_pos hv

/-- Settles O25. -/
theorem iconstPushesItsOperand : Obligations.IconstPushesItsOperand :=
  fun _ => ⟨rfl, fun _ => pushesWord_of_push rfl⟩

/-- Settles O26: behind the check of the offset, LOAD is the push of the local. -/
theorem loadPushesTheLocal : Obligations.LoadPushesTheLocal := by
  refine fun offset => ⟨rfl, fun s => ⟨State.needLocal_of_outOfRange, fun r o hfp hr ho hlt => ?_⟩⟩
  have hload := execLoad_of_valid (State.validLocal_of_s32 hfp ho hlt) hr
  rw [operandIndex_eq_of_s32 ho] at hload
  exact pushesWord_of_push hload

/-- Settles O27: behind the check of the index, GLOAD is the push of the global. -/
theorem gloadPushesTheGlobal : Obligations.GloadPushesTheGlobal := by
  refine fun index => ⟨rfl, fun s => ⟨State.needGlobal_of_outOfRange, fun g hg hlt => ?_⟩⟩
  have hgload := execGload_of_valid (State.validGlobal_of_s32 hg hlt)
  rw [operandIndex_eq_of_s32 hg] at hgload
  exact pushesWord_of_push hgload

/-! ### What STORE and GSTORE did when they answer a next state -/

theorem execStore_eq_next :
    exec (.store offset) s = .next t ↔
      (s.validLocal offset = true ∧ ∃ floor, s.floor? = some floor ∧
        ((s.sp - floor < 1 ∧ t = s.faulted .stackUnderflow) ∨
         (1 ≤ s.sp - floor ∧ ∃ v, s.slot? s.sp = some v ∧ ∃ r, s.frame? s.fp = some r ∧
           t = (s.setSp (s.sp - 1)).putLocal r (operandIndex offset) v))) ∨
      (s.validLocal offset = false ∧ t = s.faulted .invalidLocalOffset) := by
  simp only [exec, execStore, State.needLocal_eq_next, State.pop_eq_next, State.withFrame_eq_next,
    Host.Outcome.next.injEq, eq_comm (b := t)]

theorem execGstore_eq_next :
    exec (.gstore index) s = .next t ↔
      (s.validGlobal index = true ∧ ∃ floor, s.floor? = some floor ∧
        ((s.sp - floor < 1 ∧ t = s.faulted .stackUnderflow) ∨
         (1 ≤ s.sp - floor ∧ ∃ v, s.slot? s.sp = some v ∧
           t = (s.setSp (s.sp - 1)).putGlobal (operandIndex index) v))) ∨
      (s.validGlobal index = false ∧ t = s.faulted .invalidGlobalIndex) := by
  simp only [exec, execGstore, State.needGlobal_eq_next, State.pop_eq_next, Host.Outcome.next.injEq,
    eq_comm (b := t)]

/-- The records after STORE's two writes: the active one has the new local, every other is as before. -/
theorem State.frame?_setSp_putLocal (hr : s.frame? s.fp = some r) (j : Int) (a : Nat) (v : Word) (k : Int) :
    ((s.setSp j).putLocal r a v).frame? k =
      if k = s.fp then some { r with locals := r.locals.write a v } else s.frame? k := by
  have hk : (s.setSp j).hasFrame (s.setSp j).fp = true := by simpa using (State.frame?_eq_some.1 hr).1
  simpa using State.frame?_putLocal hk r a v k

/-- Settles O28: the write to a record that exists is read back there and nowhere else. -/
theorem storePopsIntoTheLocal : Obligations.StorePopsIntoTheLocal := by
  refine fun offset => ⟨rfl, fun s => ⟨State.needLocal_of_outOfRange, fun r o hfp hr ho hlt => ?_⟩⟩
  have hvalid := State.validLocal_of_s32 hfp ho hlt
  have hfloor : s.floor? = some r.savedSp := by rw [State.floor?_frame hfp, hr, Option.map_some]
  refine ⟨fun hd => execStore_eq_next.2 (.inl ⟨hvalid, _, hfloor, .inl ⟨hd, rfl⟩⟩), fun v hd hv => ?_⟩
  have hstore := execStore_eq_next.2 (.inl ⟨hvalid, _, hfloor, .inr ⟨hd, v, hv, r, hr, rfl⟩⟩)
  rw [operandIndex_eq_of_s32 ho] at hstore
  have hframe := State.frame?_setSp_putLocal hr (s.sp - 1) o v
  exact ⟨_, { r with locals := r.locals.write o v }, hstore, rfl, rfl, rfl, (hframe s.fp).trans (if_pos rfl),
    Memory.read_write_same _ o v, fun _ hj => Memory.read_write_other _ v hj, rfl, rfl, rfl,
    fun k hk => (hframe k).trans (if_neg hk), fun _ => rfl, fun _ => rfl, ⟨rfl, rfl⟩,
    ⟨rfl, rfl, rfl, rfl, rfl⟩, ⟨rfl, rfl, rfl⟩, rfl⟩

/-- Settles O29. -/
theorem gstorePopsIntoTheGlobal : Obligations.GstorePopsIntoTheGlobal := by
  refine fun index => ⟨rfl, fun s => ⟨State.needGlobal_of_outOfRange, fun g floor hg hlt hfloor => ?_⟩⟩
  have hvalid := State.validGlobal_of_s32 hg hlt
  refine ⟨fun hd => execGstore_eq_next.2 (.inl ⟨hvalid, _, hfloor, .inl ⟨hd, rfl⟩⟩), fun v hd hv => ?_⟩
  have hgstore := execGstore_eq_next.2 (.inl ⟨hvalid, _, hfloor, .inr ⟨hd, v, hv, rfl⟩⟩)
  rw [operandIndex_eq_of_s32 hg] at hgstore
  exact ⟨_, hgstore, rfl, rfl, rfl, Memory.read_write_same _ g v, fun _ hb => Memory.read_write_other _ v hb,
    fun _ => rfl, fun _ => rfl, ⟨rfl, rfl⟩, ⟨rfl, rfl, rfl, rfl, rfl⟩, ⟨rfl, rfl, rfl⟩, rfl⟩

/-! ### Storing and loading back -/

/-- After a pop, the slot popped is room for a push, which cannot overflow and brings `sp` back to where it was. -/
theorem State.push_after_pop (hv : s.slot? s.sp = some v) (hparams : t.params = s.params) (hsp : t.sp = s.sp - 1)
    (hrun : t.runState = .running) :
    ∃ u, t.push v = .next u ∧ u.runState = .running ∧ u.sp = s.sp ∧ u.slot? u.sp = some v := by
  have htop : t.sp + 1 = s.sp := by omega
  have hroom : t.hasSlot (t.sp + 1) = true := by
    rw [htop, State.hasSlot_congr hparams]
    exact (State.slot?_eq_some.1 hv).1
  obtain ⟨u, hu, husp, huv, -, -, ⟨-, ⟨hurun, -⟩, -⟩, -⟩ := State.push_of_room hroom v
  exact ⟨u, hu, hurun.trans hrun, husp.trans htop, huv⟩

/-- Settles O30: a STORE after which the engine is Running did not fault, so the active record holds the popped word. -/
theorem storeThenLoadReturnsTheWord : Obligations.StoreThenLoadReturnsTheWord := by
  intro s t offset v _ hv hstore hrun
  obtain ⟨hvalid, floor, -, ⟨-, rfl⟩ | ⟨-, v', hv', r, hr, rfl⟩⟩ | ⟨-, rfl⟩ := execStore_eq_next.1 hstore
  · simp at hrun
  · obtain rfl := Option.some.inj (hv.symm.trans hv')
    have hframe := (State.frame?_setSp_putLocal hr (s.sp - 1) (operandIndex offset) v s.fp).trans (if_pos rfl)
    have hload := execLoad_of_valid
      (s := (s.setSp (s.sp - 1)).putLocal r (operandIndex offset) v) hvalid hframe
    rw [Memory.read_write_same] at hload
    rw [hload]
    exact State.push_after_pop hv rfl rfl hrun
  · simp at hrun

/-- Settles O31: a GLOAD reads no frame, so what GSTORE wrote is read back under any `fp`. -/
theorem gstoreThenGloadReturnsTheWord : Obligations.GstoreThenGloadReturnsTheWord := by
  intro s t index v k _ hv hgstore hrun
  obtain ⟨hvalid, floor, -, ⟨-, rfl⟩ | ⟨-, v', hv', rfl⟩⟩ | ⟨-, rfl⟩ := execGstore_eq_next.1 hgstore
  · simp at hrun
  · obtain rfl := Option.some.inj (hv.symm.trans hv')
    have hgload := execGload_of_valid
      (s := ((s.setSp (s.sp - 1)).putGlobal (operandIndex index) v).setFp k) hvalid
    rw [State.setFp_globals, State.putGlobal_globals, Memory.read_write_same] at hgload
    rw [hgload]
    exact State.push_after_pop hv rfl rfl hrun
  · simp at hrun

end Sys2Proof.Machine

/-!
The output and stack family (spec/43_stack_output.md): PRINT and POP take the top word off the frame, PRINT by the stack
primitive `Pop()`, POP by the depth check alone, which reads no slot.
-/

namespace Sys2Proof.Machine

variable {s t : State}

/-! ### What PRINT and POP did when they answer a next state -/

theorem execPrint_eq_next :
    exec .print s = .next t ↔ ∃ floor, s.floor? = some floor ∧
      ((s.sp - floor < 1 ∧ t = s.faulted .stackUnderflow) ∨
       (1 ≤ s.sp - floor ∧ ∃ v, s.slot? s.sp = some v ∧ t = (s.setSp (s.sp - 1)).emit v)) := by
  simp only [exec, execPrint, State.pop_eq_next, Host.Outcome.next.injEq, eq_comm (b := t)]

theorem execPop_eq_next :
    exec .pop s = .next t ↔ ∃ floor, s.floor? = some floor ∧
      ((s.sp - floor < 1 ∧ t = s.faulted .stackUnderflow) ∨
       (1 ≤ s.sp - floor ∧ t = s.setSp (s.sp - 1))) := by
  simp only [exec, execPop, State.needDepth_eq_next, Host.Outcome.next.injEq, eq_comm (b := t)]

/-! ### PRINT -/

/-- The two lines R151 spells out. -/
theorem sinkLine_neg_one_and_min : sinkLine (-1) = "-1" ∧ sinkLine 0x80000000 = "-2147483648" := by decide

/-- Moving `sp` and emitting a word leaves the run inputs, STATUS, FAULT_OFFSET and `cur` as they were. -/
theorem State.sameCore_setSp_emit (s : State) (j : Int) (v : Word) : s.SameCore ((s.setSp j).emit v) := by
  simp [State.SameCore, State.SameInputs, State.SameStatus]

/-- Settles O32: the entry of a fault writes no OUT, and a PRINT that finds a word emits the one it read. -/
theorem printEmitsThePoppedWord : Obligations.PrintEmitsThePoppedWord := by
  obtain ⟨hneg, hmin⟩ := sinkLine_neg_one_and_min
  refine ⟨rfl, hneg, hmin, fun s floor hf => ⟨fun hd => ?_, fun v hd hv => ?_⟩⟩
  · exact ⟨execPrint_eq_next.2 ⟨floor, hf, .inl ⟨hd, rfl⟩⟩, State.faulted_out s _⟩
  · have hprint := execPrint_eq_next.2 ⟨floor, hf, .inr ⟨hd, v, hv, rfl⟩⟩
    exact ⟨_, hprint, rfl, rfl, rfl, rfl, rfl, fun _ => rfl, fun _ => rfl, fun _ => rfl, s.sameCore_setSp_emit _ v⟩

/-! ### POP -/

/-- Settles O33: lowering `sp` is the only write, so the slot it leaves reads as before. -/
theorem popDiscardsTheTop : Obligations.PopDiscardsTheTop := by
  refine ⟨rfl, fun s floor hf => ⟨fun hd => execPop_eq_next.2 ⟨floor, hf, .inl ⟨hd, rfl⟩⟩, fun hd => ?_⟩⟩
  have hpop := execPop_eq_next.2 ⟨floor, hf, .inr ⟨hd, rfl⟩⟩
  exact ⟨_, hpop, rfl, fun _ => rfl, rfl, s.sameBesidesStackAndIp_setSp_setIp _ s.ip⟩

end Sys2Proof.Machine

/-!
The call family (spec/44_call_return.md): CALL's checks in the order of R195 and the record it makes of its arguments,
and the three ways RET ends.
-/

namespace Sys2Proof.Machine

variable {s t : State} {target nargs v : Word} {r : FrameRecord} {args : List Word} {n : Nat} {floor : Int}

/-! ### CALL's checks -/

theorem State.validNargs_of_s32 (hn : s32 nargs = n) (hle : n ≤ s.params.frameLocals) : s.validNargs nargs = true :=
  State.validNargs_iff.2 ⟨by omega, by omega⟩

/-- An argument count out of range faults before the stack, the frames and the target are looked at (R160). -/
theorem execCall_of_nargs_outOfRange (h : s32 nargs < 0 ∨ s.params.frameLocals < s32 nargs) :
    exec (.call target nargs) s = .next (s.faulted .invalidLocalOffset) := by
  have hv : s.validNargs nargs = false := by
    rw [← Bool.not_eq_true, State.validNargs_iff]
    omega
  exact execCall_eq_next.2 (.inr ⟨hv, rfl⟩)

section

variable (hn : s32 nargs = n) (hle : n ≤ s.params.frameLocals) (hf : s.floor? = some floor)

include hn hle hf

theorem execCall_of_underflow (hd : s.sp - floor < n) :
    exec (.call target nargs) s = .next (s.faulted .stackUnderflow) :=
  execCall_eq_next.2 (.inl ⟨State.validNargs_of_s32 hn hle, floor, hf, .inl ⟨hd.trans_eq hn.symm, rfl⟩⟩)

variable (hd : n ≤ s.sp - floor)

include hd

theorem execCall_of_no_frame_left (hmax : s.fp = s.params.maxFrames - 1) :
    exec (.call target nargs) s = .next (s.faulted .stackOverflow) :=
  execCall_eq_next.2
    (.inl ⟨State.validNargs_of_s32 hn hle, floor, hf, .inr ⟨hn.trans_le hd, .inl ⟨hmax, rfl⟩⟩⟩)

variable (hroom : s.fp ≠ s.params.maxFrames - 1)

include hroom

theorem execCall_of_target_outOfRange (hv : ¬(0 ≤ s32 target ∧ s32 target ≤ s.codeLen)) :
    exec (.call target nargs) s = .next (s.faulted .programBoundsError) :=
  execCall_eq_next.2 (.inl ⟨State.validNargs_of_s32 hn hle, floor, hf,
    .inr ⟨hn.trans_le hd, .inr ⟨hroom, .inr ⟨State.validTarget_eq_false_iff.2 hv, rfl⟩⟩⟩⟩)

/-- Behind its four checks, CALL enters the new frame with the arguments it finds. -/
theorem execCall_of_args (hv : 0 ≤ s32 target ∧ s32 target ≤ s.codeLen) (hk : s.hasFrame (s.fp + 1) = true)
    (ha : s.topWords? n = some args) : exec (.call target nargs) s = .next (s.enterCall args target) := by
  rw [← operandIndex_eq_of_s32 hn] at ha
  exact execCall_eq_next.2 (.inl ⟨State.validNargs_of_s32 hn hle, floor, hf,
    .inr ⟨hn.trans_le hd, .inr ⟨hroom, .inl ⟨State.validTarget_iff.2 hv, hk, args, ha, rfl⟩⟩⟩⟩)

end

/-! ### The frame CALL enters -/

/-- A local of the new record: the argument of that number, and 0 where there is none (R161, R162). -/
theorem State.callRecord_read (s : State) (args : List Word) (i : Nat) :
    (s.callRecord args).locals.read i = args[i]?.getD 0 := by
  rw [State.callRecord, Memory.read_writeList, if_pos (Nat.zero_le i), Nat.sub_zero, Memory.read_nil]

/-- The first locals are the words CALL takes off the stack, the deepest first (R161). -/
theorem State.callRecord_read_arg (ha : s.topWords? n = some args) {i : Nat} (hi : i < n) :
    s.slot? (s.sp - n + 1 + i) = some ((s.callRecord args).locals.read i) := by
  obtain ⟨rfl, hargs⟩ := State.topWords?_eq_some ha
  rw [hargs i hi, State.callRecord_read, List.getElem?_eq_getElem hi, Option.getD_some]

/-- The locals behind the arguments are 0 (R162). -/
theorem State.callRecord_read_rest (s : State) {i : Nat} (hi : args.length ≤ i) :
    (s.callRecord args).locals.read i = 0 := by
  rw [State.callRecord_read, List.getElem?_eq_none hi, Option.getD_none]

/-- Entering a frame leaves the stack slots, the globals, the streams, the run inputs, STATUS and `cur` as they were. -/
theorem State.enterCall_leaves (s : State) (args : List Word) (target : Word) :
    s.SameStack (s.enterCall args target) ∧ s.SameGlobals (s.enterCall args target) ∧
      s.SameStreams (s.enterCall args target) ∧ s.SameCore (s.enterCall args target) := by
  simp [State.SameStack, State.SameGlobals, State.SameStreams, State.SameCore, State.SameInputs, State.SameStatus]

/-- Settles O34: the checks pass in turn, the slots of the arguments exist, and the new record is made of them. -/
theorem callEntersANewFrame : Obligations.CallEntersANewFrame := by
  refine fun target nargs => ⟨rfl, fun s => ⟨execCall_of_nargs_outOfRange, fun n floor hn hle hf =>
    ⟨execCall_of_underflow hn hle hf, execCall_of_no_frame_left hn hle hf, execCall_of_target_outOfRange hn hle hf,
      fun hd hlow hsp hfp hmax h0 hlen => ?_⟩⟩⟩
  have hk : s.hasFrame (s.fp + 1) = true := State.hasFrame_iff.2 (by omega)
  obtain ⟨args, ha⟩ := State.topWords?_exists hlow hsp
  have hcall := execCall_of_args hn hle hf hd hmax.ne ⟨h0, hlen⟩ hk ha
  have hframe := State.frame?_enterCall hk args target
  obtain ⟨rfl, -⟩ := State.topWords?_eq_some ha
  exact ⟨_, s.callRecord args, hcall, operandIndex_cast h0, rfl, rfl, (hframe _).trans (if_pos rfl), rfl, rfl, rfl,
    fun _ => State.callRecord_read_arg ha, fun _ => s.callRecord_read_rest, fun j hj => (hframe j).trans (if_neg hj),
    s.enterCall_leaves args target⟩

/-! ### RET -/

theorem execRet_of_top_level (hfp : s.fp = -1) : exec .ret s = .next (s.faulted .unbalancedReturn) :=
  execRet_eq_next.2 (.inl ⟨hfp, rfl⟩)

section

variable (hfp : s.fp ≠ -1) (hr : s.frame? s.fp = some r)

include hfp hr

theorem execRet_of_value (hd : r.savedSp < s.sp) (hs : s.hasSlot (r.savedSp + 1) = true) (hv : s.slot? s.sp = some v) :
    exec .ret s = .next (((s.putSlot (r.savedSp + 1) v).setSp (r.savedSp + 1)).leaveFrame r) :=
  execRet_eq_next.2 (.inr ⟨hfp, r, hr, .inl ⟨hd, hs, v, hv, rfl⟩⟩)

theorem execRet_of_no_value (hd : s.sp ≤ r.savedSp) :
    exec .ret s = .next ((s.setSp r.savedSp).leaveFrame r) :=
  execRet_eq_next.2 (.inr ⟨hfp, r, hr, .inr ⟨hd, rfl⟩⟩)

end

/-- RET's writes besides the stack leave every record but the active one, the globals, the streams, the run inputs,
STATUS and `cur` as they were, whatever the stack was made before them (R166). -/
theorem State.SameBesidesStack.leaveFrame (ht : s.SameBesidesStack t) (hr : s.frame? s.fp = some r) :
    s.SameFramesBut (t.leaveFrame r) s.fp ∧ s.SameGlobals (t.leaveFrame r) ∧ s.SameStreams (t.leaveFrame r) ∧
      s.SameCore (t.leaveFrame r) := by
  obtain ⟨-, hcore, hfp, hframes, hglobals, hstreams⟩ := ht
  have hk : t.hasFrame t.fp = true := by
    rw [hfp]
    exact (State.frame?_eq_some.1 ((hframes s.fp).trans hr)).1
  refine ⟨fun k hne => ?_, hglobals, hstreams, hcore⟩
  rw [State.frame?_leaveFrame hk, hfp, if_neg hne, hframes k]

theorem State.sameBesidesStack_putSlot_setSp (s : State) (i j : Int) (v : Word) :
    s.SameBesidesStack ((s.putSlot i v).setSp j) := by
  simp [State.SameBesidesStack, State.SameBesidesStackAndIp, State.SameCore, State.SameInputs, State.SameStatus,
    State.SameFrames, State.SameGlobals, State.SameStreams]

/-- The slots after RET with a value: the one above the caller's stack level holds it, every other is as before. -/
theorem State.slot?_leaveFrame_value {i : Int} (hs : s.hasSlot i = true) (v : Word) (r : FrameRecord) (j : Int) :
    (((s.putSlot i v).setSp i).leaveFrame r).slot? j = if j = i then some v else s.slot? j := by
  rw [State.slot?_leaveFrame, State.slot?_setSp, State.slot?_putSlot hs]

/-- Settles O35: the slot of the returned value lies between the caller's stack level and the callee's top. -/
theorem retRestoresTheCaller : Obligations.RetRestoresTheCaller := by
  refine ⟨rfl, fun s => ⟨execRet_of_top_level, fun r hfp hr => ⟨fun v hd hv hlow => ?_, fun hd => ?_⟩⟩⟩
  · have htop := State.hasSlot_iff.1 (State.slot?_eq_some.1 hv).1
    have hs : s.hasSlot (r.savedSp + 1) = true := State.hasSlot_iff.2 (by omega)
    have hslot := State.slot?_leaveFrame_value hs v r
    exact ⟨_, execRet_of_value hfp hr hd hs hv, rfl, (hslot _).trans (if_pos rfl),
      fun j hj => (hslot j).trans (if_neg hj), rfl, rfl, (s.sameBesidesStack_putSlot_setSp _ _ v).leaveFrame hr⟩
  · have hsp : s.SameBesidesStack (s.setSp r.savedSp) := ⟨rfl, s.sameBesidesStackAndIp_setSp_setIp _ s.ip⟩
    exact ⟨_, execRet_of_no_value hfp hr hd, rfl, fun _ => rfl, rfl, rfl, hsp.leaveFrame hr⟩

end Sys2Proof.Machine

/-!
The exceptions family (spec/60_exceptions.md): the entry of a fault (R191, R196, R198), the kinds each instruction
raises (R190, R192), and what determines a run (R211).
-/

namespace Sys2Proof.Machine

variable {i : Instr} {s t u : State} {k : FaultKind}

/-! ### Fault entry and the kinds raised -/

/-- Settles O14: a Faulted engine takes no step, and FAULT_OFFSET holds each offset that fits its 32 bits. -/
theorem faultEntryRecordsKindAndOffset : Obligations.FaultEntryRecordsKindAndOffset :=
  fun s k => ⟨s.faulted k, rfl, rfl, faultOffsetOf_toNat, rfl, step_of_faulted rfl⟩

/-- The kinds `State.MayRaise` lists for an instruction are in its column of R190. -/
theorem State.MayRaise.mem_kindsRaisedBy (h : s.MayRaise i k) : k ∈ kindsRaisedBy i := by
  cases h with
  | underflow hi => exact hi
  | overflow hi => exact hi
  | unbalanced => exact .head _
  | target hi ho =>
    cases i with
    | br => exact .head _
    | brt | brf => exact .tail _ (.head _)
    | call => exact .tail _ (.tail _ (.tail _ (.head _)))
    | _ => cases hi
  | localOffset hi ho => obtain rfl | rfl := hi <;> exact .head _
  | nargs ho => exact .head _
  | globalIndex hi ho => obtain rfl | rfl := hi <;> exact .head _

/-- Settles O16. -/
theorem eachInstructionRaisesItsKinds : Obligations.EachInstructionRaisesItsKinds :=
  fun i _ t k hs he hk => (exec_mayRaise hs i t k he hk).mem_kindsRaisedBy

/-! ### What determines a run -/

/-- Two engines at the same point of the same run: the view of the instructions, STATUS, FAULT_OFFSET and OUT agree.
`cur`, the trace, ENTRY, CODE_MAX, G_MAX and what lies above `sp` and `fp` may differ. -/
structure State.SameRun (s t : State) : Prop extends s.SameView t where
  runState : t.runState = s.runState
  faultKind : t.faultKind = s.faultKind
  faultOffset : t.faultOffset = s.faultOffset
  out : t.out = s.out

namespace State.SameRun

theorem result?_eq (h : s.SameRun t) : t.result? = s.result? := by
  rw [State.result?, State.result?, h.runState, h.faultKind, h.faultOffset]

theorem faulted (h : s.SameRun t) (hcur : t.cur = s.cur) (k : FaultKind) : (s.faulted k).SameRun (t.faulted k) :=
  { h with ip := hcur, runState := rfl, faultKind := rfl, faultOffset := congrArg faultOffsetOf hcur }

theorem decoded (h : s.SameRun t) (i : Instr) : (s.decoded i).SameRun (t.decoded i) := by
  rw [State.decoded_eq, State.decoded_eq]
  exact { h with ip := congrArg (· + i.size) h.ip }

theorem setSp (h : s.SameRun t) {j : Int} (hj : j ≤ s.sp) : (s.setSp j).SameRun (t.setSp j) :=
  { h with sp := rfl, slots := fun i hi => h.slots i (le_trans hi hj) }

/-- RET's leaving of a frame uncovers only records below the active one. -/
theorem leaveFrame (h : s.SameRun t) {r : FrameRecord} (hr : s.frame? s.fp = some r) (hle : r.savedFp ≤ s.fp) :
    (s.leaveFrame r).SameRun (t.leaveFrame r) :=
  { h with ip := rfl, fp := rfl, frames := fun _ hk => h.frame?_leaveFrame_eq hr (le_trans hk hle) }

/-- Every update of an instruction is the same to both, once `cur` agrees; RET's by the invariant, which puts the
caller's level and frame below the callee's. -/
theorem updatesRelated (h : s.SameRun t) (hI : s.Inv) (hcur : t.cur = s.cur) :
    s.UpdatesRelated State.SameRun t := by
  have hpop : (s.setSp (s.sp - 1)).SameRun (t.setSp (s.sp - 1)) := h.setSp (sub_le_self _ zero_le_one)
  constructor
  case fault => exact h.faulted hcur
  case halt => exact { h with runState := rfl }
  case jump => exact fun _ => { h with ip := rfl }
  case put =>
    intro k w hle hk
    refine { h with sp := rfl, slots := fun j hj => h.slot?_putSlot_eq hk w ?_ }
    rw [State.putSlot_sp, State.setSp_sp] at hj
    omega
  case pop => exact hpop
  case popJump => exact fun _ => { hpop with ip := rfl }
  case popLocal => exact fun r a w hr => { hpop with frames := fun _ hk => h.frame?_putLocal_eq hr a w hk }
  case popGlobal => exact fun a w => { hpop with globals := congrArg (Memory.write · a w) h.globals }
  case popEmit => exact fun w => { hpop with out := congrArg (· ++ [w]) h.out }
  case call =>
    intro args target hk
    refine { h with
      ip := rfl, sp := congrArg (· - (args.length : Int)) h.sp, fp := congrArg (· + 1) h.fp
      slots := fun j hj => h.slots j ?_, frames := fun _ hk' => h.frame?_enterCall_eq hk args target hk' }
    rw [State.enterCall_sp] at hj
    omega
  case retValue =>
    intro r w hr hd hk
    obtain ⟨-, hsaved, -, -, -⟩ := hI.activeRecord hr
    have hput : ((s.putSlot (r.savedSp + 1) w).setSp (r.savedSp + 1)).SameRun
        ((t.putSlot (r.savedSp + 1) w).setSp (r.savedSp + 1)) :=
      { h with sp := rfl, slots := fun _ hj => h.slot?_putSlot_eq hk w (.inr (le_trans hj hd)) }
    exact hput.leaveFrame hr (hsaved.trans_le (sub_le_self _ zero_le_one))
  case ret =>
    intro r hr
    obtain ⟨-, hsaved, -, hle, -⟩ := hI.activeRecord hr
    exact (h.setSp hle).leaveFrame hr (hsaved.trans_le (sub_le_self _ zero_le_one))

/-- One step keeps two engines at the same point of the run. -/
theorem step_related (h : s.SameRun t) (hI : s.Inv) : resultsRelated State.SameRun (step s) (step t) := by
  have hcur : (s.setCur s.ip).SameRun (t.setCur s.ip) := { h with }
  refine Machine.step_related h.runState h.code h.ip { h with runState := rfl } (hcur.faulted rfl)
    fun i rest hr hip hd => ?_
  have hdec := h.decoded i
  refine hdec.exec_related i (hdec.updatesRelated (hI.decoded hr (decode_size_le hd hip)) ?_)
  rw [State.decoded_cur, State.decoded_cur, h.ip]

/-- So does every number of steps. -/
theorem core_run_related (h : s.SameRun t) (hI : s.Inv) {n : Nat} (hrun : core.run n s = .next u) :
    ∃ u', core.run n t = .next u' ∧ u.SameRun u' := by
  induction n generalizing s t with
  | zero =>
    cases hrun
    exact ⟨t, rfl, h⟩
  | succ n ih =>
    obtain ⟨s₁, hs, hrun₁⟩ := core_run_succ hrun
    obtain ⟨t₁, ht, h₁⟩ := (h.step_related hI).next hs
    obtain ⟨u', hu', hu⟩ := ih h₁ (stepKeepsTheInvariant s s₁ hI hs) hrun₁
    exact ⟨u', core_run_of_step ht hu', hu⟩

end State.SameRun

theorem State.slot?_of_neg {j : Int} (hj : j < 0) : s.slot? j = none := by
  rw [State.slot?, if_neg]
  rw [State.hasSlot_iff]
  omega

/-- Starts with the same inputs and the same R6 to R8 begin the same run: no stack slot and no frame record is in use
yet (R220). -/
theorem State.sameRun_started (hcap : t.params.stackCap = s.params.stackCap)
    (hlocals : t.params.frameLocals = s.params.frameLocals) (hmax : t.params.maxFrames = s.params.maxFrames)
    (code : List Word) (entry gCap : Nat) (trace trace' : Bool) :
    (s.started code entry gCap trace).SameRun (t.started code entry gCap trace') where
  stackCap := hcap
  frameLocals := hlocals
  maxFrames := hmax
  code := rfl
  gCap := rfl
  ip := rfl
  sp := rfl
  fp := rfl
  globals := rfl
  slots j hj := by
    have hneg : j < 0 := lt_of_le_of_lt hj neg_one_lt_zero
    rw [State.slot?_of_neg hneg, State.slot?_of_neg hneg]
  frames k hk := by
    have hneg : k < 0 := lt_of_le_of_lt hk neg_one_lt_zero
    rw [State.frame?_of_neg hneg, State.frame?_of_neg hneg]
  runState := rfl
  faultKind := rfl
  faultOffset := rfl
  out := rfl

/-- Settles O49: the two starts begin the same run, and every step keeps them in it. -/
theorem runsAreDeterminedByTheirInputs : Obligations.RunsAreDeterminedByTheirInputs := by
  intro s s' t t' u code entry gCap trace trace' n hI _ hcap hlocals hmax hst hst' hrun
  have ht : t.Inv := startKeepsTheInvariant s t code entry gCap trace hI hst
  obtain ⟨-, rfl⟩ := State.start_eq_next.1 hst
  obtain ⟨-, rfl⟩ := State.start_eq_next.1 hst'
  have hstart := State.sameRun_started hcap hlocals hmax code entry gCap trace trace'
  obtain ⟨u', hu', hu⟩ := hstart.core_run_related ht hrun
  exact ⟨u', hu', hu.result?_eq, hu.out⟩

end Sys2Proof.Machine

/-!
Power-on, start and the first fetch (R220 to R223): a start latches the inputs, and ENTRY meets the checks of Fetch and
Decode alone.
-/

namespace Sys2Proof.Machine

variable {s t : State} {code : List Word} {entry gCap : Nat} {trace : Bool}

theorem State.start_of_refused (h : s.params.codeMax < code.length ∨ s.params.gMax < gCap) :
    s.start code entry gCap trace = .refused .startRefused := by
  rw [State.start, if_neg]
  rw [State.startAccepted_iff]
  omega

/-- Settles O11: the values of R223 do not depend on the parameters, and an Idle engine's step is a model fault. -/
theorem powerOnIsIdle : Obligations.PowerOnIsIdle := by
  refine ⟨⟨Params.default, rfl⟩, fun p => ⟨rfl, rfl, rfl, rfl, fun t ht => ?_⟩⟩
  rw [step_of_idle rfl] at ht
  cases ht

/-- Settles O12: the inputs that are not refused are accepted, and a global that is not listed reads 0. -/
theorem startSetsTheRunState : Obligations.StartSetsTheRunState := by
  intro s code entry gCap trace
  split_ifs with hrefused
  · exact State.start_of_refused hrefused
  · have haccepted : code.length ≤ s.params.codeMax ∧ gCap ≤ s.params.gMax := by omega
    exact ⟨s.started code entry gCap trace, State.start_eq_next.2 ⟨haccepted, rfl⟩,
      rfl, rfl, rfl, rfl, rfl, rfl, rfl, rfl, Memory.read_nil, rfl, rfl, rfl, rfl, rfl⟩

/-- Settles O13: a started engine is Running at ENTRY with `OUT` empty, so each case is an end of Fetch or Decode, or
the rule of the decoded instruction. -/
theorem entryIsCheckedAtTheFirstFetch : Obligations.EntryIsCheckedAtTheFirstFetch := by
  intro s t code entry gCap trace hst
  obtain ⟨-, rfl⟩ := State.start_eq_next.1 hst
  have hr : (s.started code entry gCap trace).runState = .running := State.started_runState s code entry gCap trace
  refine ⟨fun hend => ?atEnd, fun hpast => ?pastEnd, fun hin => ⟨fun i rest hd => ?decodes, fun e hd => ?rejected⟩⟩
  case atEnd => exact ⟨_, step_at_end hr hend, rfl, rfl⟩
  case pastEnd => exact ⟨_, step_past_end hr hpast, rfl, rfl, faultOffsetOf_toNat, rfl⟩
  case decodes => exact ⟨_, step_of_decode hr hin hd, by rw [State.decoded_eq]; rfl⟩
  case rejected => exact step_of_rejected hr hin hd

end Sys2Proof.Machine
